-- ==== Sys2Proof/Word.lean ====
section
/-! DEFINITION. The word types of GBA-CORE (00_scope.md R8, R10): 32-bit words, 16-bit halfwords, bytes. -/

namespace Sys2Proof

/-- A 32-bit word: a register, an address, an ARM instruction (00_scope.md R8). -/
abbrev Word := BitVec 32

/-- A 16-bit halfword: a Thumb instruction, a halfword of memory. -/
abbrev Half := BitVec 16

/-- A byte of memory. -/
abbrev Byte := BitVec 8

end Sys2Proof
end

