-- ==== Sys2Proof/Syntax.lean ====
section
/-! DEFINITION. The instructions of GBA-CORE: one constructor per row of spec/opcode_table.json (116 ARM
rows, 68 Thumb rows), in the table's order. A constructor's fields are exactly the bits its row
leaves free, SBZ and SBO fields included, so every word of both sets is the encoding of exactly one
term. Thumb constructors begin with `t`. A row whose mnemonic stands in several rows is told apart by
its operand form; a row of an UNDEFINED space by its match word. -/

namespace Sys2Proof

/-- A register field of an ARM instruction, or a full register number of Thumb format 5. -/
abbrev Reg := BitVec 4

/-- A register field of a Thumb instruction, R0..R7 (30_encoding.md R139). -/
abbrev LowReg := BitVec 3

/-- The condition codes (30_encoding.md R123). -/
inductive Cond where
  | eq | ne | cs | cc | mi | pl | vs | vc | hi | ls | ge | lt | gt | le | al | nv
  deriving DecidableEq, Repr

/-- The shift kinds (30_encoding.md R125); ROR by 0 in the immediate form is RRX (40_shifter.md R186). -/
inductive ShiftKind where
  | lsl | lsr | asr | ror
  deriving DecidableEq, Repr

/-- The instructions. Field names: `c` condition, `sf` the S bit, `p u w` the P, U, W bits, `r` the R
bit, `k` shift kind, `amt` shift amount, `rot imm` a rotated immediate, `fm` field mask, `b<n>` bit n
and `f<n>` the four bits from n up of a word of an UNDEFINED space. -/
inductive Instr where
  -- ARM data processing, register shifted by immediate
  /-- AND, match 0x00000000 mask 0x0FE00010, R213. -/
  | andImmShift (c : Cond) (sf : Bool) (rn rd : Reg) (amt : BitVec 5) (k : ShiftKind) (rm : Reg)
  /-- EOR, match 0x00200000 mask 0x0FE00010, R214. -/
  | eorImmShift (c : Cond) (sf : Bool) (rn rd : Reg) (amt : BitVec 5) (k : ShiftKind) (rm : Reg)
  /-- SUB, match 0x00400000 mask 0x0FE00010, R215. -/
  | subImmShift (c : Cond) (sf : Bool) (rn rd : Reg) (amt : BitVec 5) (k : ShiftKind) (rm : Reg)
  /-- RSB, match 0x00600000 mask 0x0FE00010, R216. -/
  | rsbImmShift (c : Cond) (sf : Bool) (rn rd : Reg) (amt : BitVec 5) (k : ShiftKind) (rm : Reg)
  /-- ADD, match 0x00800000 mask 0x0FE00010, R217. -/
  | addImmShift (c : Cond) (sf : Bool) (rn rd : Reg) (amt : BitVec 5) (k : ShiftKind) (rm : Reg)
  /-- ADC, match 0x00A00000 mask 0x0FE00010, R218. -/
  | adcImmShift (c : Cond) (sf : Bool) (rn rd : Reg) (amt : BitVec 5) (k : ShiftKind) (rm : Reg)
  /-- SBC, match 0x00C00000 mask 0x0FE00010, R219. -/
  | sbcImmShift (c : Cond) (sf : Bool) (rn rd : Reg) (amt : BitVec 5) (k : ShiftKind) (rm : Reg)
  /-- RSC, match 0x00E00000 mask 0x0FE00010, R220. -/
  | rscImmShift (c : Cond) (sf : Bool) (rn rd : Reg) (amt : BitVec 5) (k : ShiftKind) (rm : Reg)
  -- ARM PSR transfer
  /-- MRS, match 0x01000000 mask 0x0FB000F0, R250. -/
  | mrs (c : Cond) (r : Bool) (sbo : BitVec 4) (rd : Reg) (sbzHi sbzLo : BitVec 4)
  -- ARM PSR transfer, register
  /-- MSR, match 0x01200000 mask 0x0FB000F0, R251. -/
  | msrReg (c : Cond) (r : Bool) (fm sbo sbz : BitVec 4) (rm : Reg)
  -- ARM undefined
  /-- UNDEFINED(misc space), match 0x01000020 mask 0x0F9000F0, R348. -/
  | undefMisc01000020 (c : Cond) (b22 b21 : Bool) (f16 f12 f8 f0 : BitVec 4)
  /-- UNDEFINED(misc space), match 0x01000040 mask 0x0F9000D0, R348. -/
  | undefMisc01000040 (c : Cond) (b22 b21 : Bool) (f16 f12 f8 : BitVec 4) (b5 : Bool) (f0 : BitVec 4)
  /-- UNDEFINED(misc space), match 0x01000080 mask 0x0F900090, R348. -/
  | undefMisc01000080 (c : Cond) (b22 b21 : Bool) (f16 f12 f8 : BitVec 4) (b6 b5 : Bool) (f0 : BitVec 4)
  -- ARM data processing, register shifted by immediate
  /-- TST, match 0x01100000 mask 0x0FF00010, R221. -/
  | tstImmShift (c : Cond) (rn rd : Reg) (amt : BitVec 5) (k : ShiftKind) (rm : Reg)
  /-- TEQ, match 0x01300000 mask 0x0FF00010, R222. -/
  | teqImmShift (c : Cond) (rn rd : Reg) (amt : BitVec 5) (k : ShiftKind) (rm : Reg)
  /-- CMP, match 0x01500000 mask 0x0FF00010, R223. -/
  | cmpImmShift (c : Cond) (rn rd : Reg) (amt : BitVec 5) (k : ShiftKind) (rm : Reg)
  /-- CMN, match 0x01700000 mask 0x0FF00010, R224. -/
  | cmnImmShift (c : Cond) (rn rd : Reg) (amt : BitVec 5) (k : ShiftKind) (rm : Reg)
  /-- ORR, match 0x01800000 mask 0x0FE00010, R225. -/
  | orrImmShift (c : Cond) (sf : Bool) (rn rd : Reg) (amt : BitVec 5) (k : ShiftKind) (rm : Reg)
  /-- MOV, match 0x01A00000 mask 0x0FE00010, R226. -/
  | movImmShift (c : Cond) (sf : Bool) (rn rd : Reg) (amt : BitVec 5) (k : ShiftKind) (rm : Reg)
  /-- BIC, match 0x01C00000 mask 0x0FE00010, R227. -/
  | bicImmShift (c : Cond) (sf : Bool) (rn rd : Reg) (amt : BitVec 5) (k : ShiftKind) (rm : Reg)
  /-- MVN, match 0x01E00000 mask 0x0FE00010, R228. -/
  | mvnImmShift (c : Cond) (sf : Bool) (rn rd : Reg) (amt : BitVec 5) (k : ShiftKind) (rm : Reg)
  -- ARM data processing, register shifted by register
  /-- AND, match 0x00000010 mask 0x0FE00090, R213. -/
  | andRegShift (c : Cond) (sf : Bool) (rn rd rs : Reg) (k : ShiftKind) (rm : Reg)
  /-- EOR, match 0x00200010 mask 0x0FE00090, R214. -/
  | eorRegShift (c : Cond) (sf : Bool) (rn rd rs : Reg) (k : ShiftKind) (rm : Reg)
  /-- SUB, match 0x00400010 mask 0x0FE00090, R215. -/
  | subRegShift (c : Cond) (sf : Bool) (rn rd rs : Reg) (k : ShiftKind) (rm : Reg)
  /-- RSB, match 0x00600010 mask 0x0FE00090, R216. -/
  | rsbRegShift (c : Cond) (sf : Bool) (rn rd rs : Reg) (k : ShiftKind) (rm : Reg)
  /-- ADD, match 0x00800010 mask 0x0FE00090, R217. -/
  | addRegShift (c : Cond) (sf : Bool) (rn rd rs : Reg) (k : ShiftKind) (rm : Reg)
  /-- ADC, match 0x00A00010 mask 0x0FE00090, R218. -/
  | adcRegShift (c : Cond) (sf : Bool) (rn rd rs : Reg) (k : ShiftKind) (rm : Reg)
  /-- SBC, match 0x00C00010 mask 0x0FE00090, R219. -/
  | sbcRegShift (c : Cond) (sf : Bool) (rn rd rs : Reg) (k : ShiftKind) (rm : Reg)
  /-- RSC, match 0x00E00010 mask 0x0FE00090, R220. -/
  | rscRegShift (c : Cond) (sf : Bool) (rn rd rs : Reg) (k : ShiftKind) (rm : Reg)
  -- ARM undefined
  /-- UNDEFINED(misc space), match 0x01000010 mask 0x0FF00090, R348. -/
  | undefMisc01000010 (c : Cond) (f16 f12 f8 : BitVec 4) (b6 b5 : Bool) (f0 : BitVec 4)
  -- ARM data processing, register shifted by register
  /-- TST, match 0x01100010 mask 0x0FF00090, R221. -/
  | tstRegShift (c : Cond) (rn rd rs : Reg) (k : ShiftKind) (rm : Reg)
  -- ARM branch and exchange
  /-- BX, match 0x01200010 mask 0x0FF000F0, R342. -/
  | bx (c : Cond) (sbo : BitVec 12) (rm : Reg)
  -- ARM undefined
  /-- UNDEFINED(misc space), match 0x01200030 mask 0x0FF000F0, R348. -/
  | undefMisc01200030 (c : Cond) (f16 f12 f8 f0 : BitVec 4)
  /-- UNDEFINED(misc space), match 0x01200050 mask 0x0FF000D0, R348. -/
  | undefMisc01200050 (c : Cond) (f16 f12 f8 : BitVec 4) (b5 : Bool) (f0 : BitVec 4)
  -- ARM data processing, register shifted by register
  /-- TEQ, match 0x01300010 mask 0x0FF00090, R222. -/
  | teqRegShift (c : Cond) (rn rd rs : Reg) (k : ShiftKind) (rm : Reg)
  -- ARM undefined
  /-- UNDEFINED(misc space), match 0x01400010 mask 0x0FD00090, R348. -/
  | undefMisc01400010 (c : Cond) (b21 : Bool) (f16 f12 f8 : BitVec 4) (b6 b5 : Bool) (f0 : BitVec 4)
  -- ARM data processing, register shifted by register
  /-- CMP, match 0x01500010 mask 0x0FF00090, R223. -/
  | cmpRegShift (c : Cond) (rn rd rs : Reg) (k : ShiftKind) (rm : Reg)
  /-- CMN, match 0x01700010 mask 0x0FF00090, R224. -/
  | cmnRegShift (c : Cond) (rn rd rs : Reg) (k : ShiftKind) (rm : Reg)
  /-- ORR, match 0x01800010 mask 0x0FE00090, R225. -/
  | orrRegShift (c : Cond) (sf : Bool) (rn rd rs : Reg) (k : ShiftKind) (rm : Reg)
  /-- MOV, match 0x01A00010 mask 0x0FE00090, R226. -/
  | movRegShift (c : Cond) (sf : Bool) (rn rd rs : Reg) (k : ShiftKind) (rm : Reg)
  /-- BIC, match 0x01C00010 mask 0x0FE00090, R227. -/
  | bicRegShift (c : Cond) (sf : Bool) (rn rd rs : Reg) (k : ShiftKind) (rm : Reg)
  /-- MVN, match 0x01E00010 mask 0x0FE00090, R228. -/
  | mvnRegShift (c : Cond) (sf : Bool) (rn rd rs : Reg) (k : ShiftKind) (rm : Reg)
  -- ARM multiply
  /-- MUL, match 0x00000090 mask 0x0FE000F0, R254. -/
  | mul (c : Cond) (sf : Bool) (rd rn rs rm : Reg)
  /-- MLA, match 0x00200090 mask 0x0FE000F0, R255. -/
  | mla (c : Cond) (sf : Bool) (rd rn rs rm : Reg)
  -- ARM undefined
  /-- UNDEFINED(multiply/swap space), match 0x00400090 mask 0x0FC000F0, R348. -/
  | undefMulSwap00400090 (c : Cond) (b21 b20 : Bool) (f16 f12 f8 f0 : BitVec 4)
  -- ARM multiply long
  /-- UMULL, match 0x00800090 mask 0x0FE000F0, R256. -/
  | umull (c : Cond) (sf : Bool) (rdHi rdLo rs rm : Reg)
  /-- UMLAL, match 0x00A00090 mask 0x0FE000F0, R257. -/
  | umlal (c : Cond) (sf : Bool) (rdHi rdLo rs rm : Reg)
  /-- SMULL, match 0x00C00090 mask 0x0FE000F0, R258. -/
  | smull (c : Cond) (sf : Bool) (rdHi rdLo rs rm : Reg)
  /-- SMLAL, match 0x00E00090 mask 0x0FE000F0, R259. -/
  | smlal (c : Cond) (sf : Bool) (rdHi rdLo rs rm : Reg)
  -- ARM swap
  /-- SWP, match 0x01000090 mask 0x0FF000F0, R260. -/
  | swp (c : Cond) (rn rd : Reg) (sbz : BitVec 4) (rm : Reg)
  /-- SWPB, match 0x01400090 mask 0x0FF000F0, R261. -/
  | swpb (c : Cond) (rn rd : Reg) (sbz : BitVec 4) (rm : Reg)
  -- ARM undefined
  /-- UNDEFINED(multiply/swap space), match 0x01100090 mask 0x0FB000F0, R348. -/
  | undefMulSwap01100090 (c : Cond) (b22 : Bool) (f16 f12 f8 f0 : BitVec 4)
  /-- UNDEFINED(multiply/swap space), match 0x01200090 mask 0x0FA000F0, R348. -/
  | undefMulSwap01200090 (c : Cond) (b22 b20 : Bool) (f16 f12 f8 f0 : BitVec 4)
  /-- UNDEFINED(multiply/swap space), match 0x01800090 mask 0x0F8000F0, R348. -/
  | undefMulSwap01800090 (c : Cond) (b22 b21 b20 : Bool) (f16 f12 f8 f0 : BitVec 4)
  -- ARM halfword transfer, register offset
  /-- STRH, match 0x000000B0 mask 0x0E5000F0, R302. -/
  | strhReg (c : Cond) (p u w : Bool) (rn rd : Reg) (sbz : BitVec 4) (rm : Reg)
  /-- LDRH, match 0x001000B0 mask 0x0E5000F0, R301. -/
  | ldrhReg (c : Cond) (p u w : Bool) (rn rd : Reg) (sbz : BitVec 4) (rm : Reg)
  -- ARM halfword transfer, immediate offset
  /-- STRH, match 0x004000B0 mask 0x0E5000F0, R302. -/
  | strhImm (c : Cond) (p u w : Bool) (rn rd : Reg) (immHi immLo : BitVec 4)
  /-- LDRH, match 0x005000B0 mask 0x0E5000F0, R301. -/
  | ldrhImm (c : Cond) (p u w : Bool) (rn rd : Reg) (immHi immLo : BitVec 4)
  -- ARM undefined
  /-- UNDEFINED(halfword store SH=1x), match 0x000000D0 mask 0x0E1000D0, R348. -/
  | undefHalfStore (c : Cond) (b24 b23 b22 b21 : Bool) (f16 f12 f8 : BitVec 4) (b5 : Bool) (f0 : BitVec 4)
  -- ARM halfword transfer, register offset
  /-- LDRSB, match 0x001000D0 mask 0x0E5000F0, R303. -/
  | ldrsbReg (c : Cond) (p u w : Bool) (rn rd : Reg) (sbz : BitVec 4) (rm : Reg)
  /-- LDRSH, match 0x001000F0 mask 0x0E5000F0, R304. -/
  | ldrshReg (c : Cond) (p u w : Bool) (rn rd : Reg) (sbz : BitVec 4) (rm : Reg)
  -- ARM halfword transfer, immediate offset
  /-- LDRSB, match 0x005000D0 mask 0x0E5000F0, R303. -/
  | ldrsbImm (c : Cond) (p u w : Bool) (rn rd : Reg) (immHi immLo : BitVec 4)
  /-- LDRSH, match 0x005000F0 mask 0x0E5000F0, R304. -/
  | ldrshImm (c : Cond) (p u w : Bool) (rn rd : Reg) (immHi immLo : BitVec 4)
  -- ARM data processing, immediate
  /-- AND, match 0x02000000 mask 0x0FE00000, R213. -/
  | andImm (c : Cond) (sf : Bool) (rn rd : Reg) (rot : BitVec 4) (imm : BitVec 8)
  /-- EOR, match 0x02200000 mask 0x0FE00000, R214. -/
  | eorImm (c : Cond) (sf : Bool) (rn rd : Reg) (rot : BitVec 4) (imm : BitVec 8)
  /-- SUB, match 0x02400000 mask 0x0FE00000, R215. -/
  | subImm (c : Cond) (sf : Bool) (rn rd : Reg) (rot : BitVec 4) (imm : BitVec 8)
  /-- RSB, match 0x02600000 mask 0x0FE00000, R216. -/
  | rsbImm (c : Cond) (sf : Bool) (rn rd : Reg) (rot : BitVec 4) (imm : BitVec 8)
  /-- ADD, match 0x02800000 mask 0x0FE00000, R217. -/
  | addImm (c : Cond) (sf : Bool) (rn rd : Reg) (rot : BitVec 4) (imm : BitVec 8)
  /-- ADC, match 0x02A00000 mask 0x0FE00000, R218. -/
  | adcImm (c : Cond) (sf : Bool) (rn rd : Reg) (rot : BitVec 4) (imm : BitVec 8)
  /-- SBC, match 0x02C00000 mask 0x0FE00000, R219. -/
  | sbcImm (c : Cond) (sf : Bool) (rn rd : Reg) (rot : BitVec 4) (imm : BitVec 8)
  /-- RSC, match 0x02E00000 mask 0x0FE00000, R220. -/
  | rscImm (c : Cond) (sf : Bool) (rn rd : Reg) (rot : BitVec 4) (imm : BitVec 8)
  -- ARM undefined
  /-- UNDEFINED(TST/CMP immediate with S=0), match 0x03000000 mask 0x0FB00000, R348. -/
  | undefTstImm (c : Cond) (b22 : Bool) (f16 f12 f8 : BitVec 4) (b7 b6 b5 b4 : Bool) (f0 : BitVec 4)
  -- ARM data processing, immediate
  /-- TST, match 0x03100000 mask 0x0FF00000, R221. -/
  | tstImm (c : Cond) (rn rd : Reg) (rot : BitVec 4) (imm : BitVec 8)
  /-- CMP, match 0x03500000 mask 0x0FF00000, R223. -/
  | cmpImm (c : Cond) (rn rd : Reg) (rot : BitVec 4) (imm : BitVec 8)
  -- ARM PSR transfer, immediate
  /-- MSR, match 0x03200000 mask 0x0FB00000, R252. -/
  | msrImm (c : Cond) (r : Bool) (fm sbo rot : BitVec 4) (imm : BitVec 8)
  -- ARM data processing, immediate
  /-- TEQ, match 0x03300000 mask 0x0FF00000, R222. -/
  | teqImm (c : Cond) (rn rd : Reg) (rot : BitVec 4) (imm : BitVec 8)
  /-- CMN, match 0x03700000 mask 0x0FF00000, R224. -/
  | cmnImm (c : Cond) (rn rd : Reg) (rot : BitVec 4) (imm : BitVec 8)
  /-- ORR, match 0x03800000 mask 0x0FE00000, R225. -/
  | orrImm (c : Cond) (sf : Bool) (rn rd : Reg) (rot : BitVec 4) (imm : BitVec 8)
  /-- MOV, match 0x03A00000 mask 0x0FE00000, R226. -/
  | movImm (c : Cond) (sf : Bool) (rn rd : Reg) (rot : BitVec 4) (imm : BitVec 8)
  /-- BIC, match 0x03C00000 mask 0x0FE00000, R227. -/
  | bicImm (c : Cond) (sf : Bool) (rn rd : Reg) (rot : BitVec 4) (imm : BitVec 8)
  /-- MVN, match 0x03E00000 mask 0x0FE00000, R228. -/
  | mvnImm (c : Cond) (sf : Bool) (rn rd : Reg) (rot : BitVec 4) (imm : BitVec 8)
  -- ARM single data transfer, immediate offset
  /-- STR, match 0x04000000 mask 0x0F700000, R293. -/
  | strImmPost (c : Cond) (u : Bool) (rn rd : Reg) (off : BitVec 12)
  /-- LDR, match 0x04100000 mask 0x0F700000, R292. -/
  | ldrImmPost (c : Cond) (u : Bool) (rn rd : Reg) (off : BitVec 12)
  /-- STRT, match 0x04200000 mask 0x0F700000, R297. -/
  | strtImm (c : Cond) (u : Bool) (rn rd : Reg) (off : BitVec 12)
  /-- LDRT, match 0x04300000 mask 0x0F700000, R296. -/
  | ldrtImm (c : Cond) (u : Bool) (rn rd : Reg) (off : BitVec 12)
  /-- STRB, match 0x04400000 mask 0x0F700000, R295. -/
  | strbImmPost (c : Cond) (u : Bool) (rn rd : Reg) (off : BitVec 12)
  /-- LDRB, match 0x04500000 mask 0x0F700000, R294. -/
  | ldrbImmPost (c : Cond) (u : Bool) (rn rd : Reg) (off : BitVec 12)
  /-- STRBT, match 0x04600000 mask 0x0F700000, R299. -/
  | strbtImm (c : Cond) (u : Bool) (rn rd : Reg) (off : BitVec 12)
  /-- LDRBT, match 0x04700000 mask 0x0F700000, R298. -/
  | ldrbtImm (c : Cond) (u : Bool) (rn rd : Reg) (off : BitVec 12)
  /-- STR, match 0x05000000 mask 0x0F500000, R293. -/
  | strImmPre (c : Cond) (u w : Bool) (rn rd : Reg) (off : BitVec 12)
  /-- LDR, match 0x05100000 mask 0x0F500000, R292. -/
  | ldrImmPre (c : Cond) (u w : Bool) (rn rd : Reg) (off : BitVec 12)
  /-- STRB, match 0x05400000 mask 0x0F500000, R295. -/
  | strbImmPre (c : Cond) (u w : Bool) (rn rd : Reg) (off : BitVec 12)
  /-- LDRB, match 0x05500000 mask 0x0F500000, R294. -/
  | ldrbImmPre (c : Cond) (u w : Bool) (rn rd : Reg) (off : BitVec 12)
  -- ARM single data transfer, register offset
  /-- STR, match 0x06000000 mask 0x0F700010, R293. -/
  | strRegPost (c : Cond) (u : Bool) (rn rd : Reg) (amt : BitVec 5) (k : ShiftKind) (rm : Reg)
  /-- LDR, match 0x06100000 mask 0x0F700010, R292. -/
  | ldrRegPost (c : Cond) (u : Bool) (rn rd : Reg) (amt : BitVec 5) (k : ShiftKind) (rm : Reg)
  /-- STRT, match 0x06200000 mask 0x0F700010, R297. -/
  | strtReg (c : Cond) (u : Bool) (rn rd : Reg) (amt : BitVec 5) (k : ShiftKind) (rm : Reg)
  /-- LDRT, match 0x06300000 mask 0x0F700010, R296. -/
  | ldrtReg (c : Cond) (u : Bool) (rn rd : Reg) (amt : BitVec 5) (k : ShiftKind) (rm : Reg)
  /-- STRB, match 0x06400000 mask 0x0F700010, R295. -/
  | strbRegPost (c : Cond) (u : Bool) (rn rd : Reg) (amt : BitVec 5) (k : ShiftKind) (rm : Reg)
  /-- LDRB, match 0x06500000 mask 0x0F700010, R294. -/
  | ldrbRegPost (c : Cond) (u : Bool) (rn rd : Reg) (amt : BitVec 5) (k : ShiftKind) (rm : Reg)
  /-- STRBT, match 0x06600000 mask 0x0F700010, R299. -/
  | strbtReg (c : Cond) (u : Bool) (rn rd : Reg) (amt : BitVec 5) (k : ShiftKind) (rm : Reg)
  /-- LDRBT, match 0x06700000 mask 0x0F700010, R298. -/
  | ldrbtReg (c : Cond) (u : Bool) (rn rd : Reg) (amt : BitVec 5) (k : ShiftKind) (rm : Reg)
  /-- STR, match 0x07000000 mask 0x0F500010, R293. -/
  | strRegPre (c : Cond) (u w : Bool) (rn rd : Reg) (amt : BitVec 5) (k : ShiftKind) (rm : Reg)
  /-- LDR, match 0x07100000 mask 0x0F500010, R292. -/
  | ldrRegPre (c : Cond) (u w : Bool) (rn rd : Reg) (amt : BitVec 5) (k : ShiftKind) (rm : Reg)
  /-- STRB, match 0x07400000 mask 0x0F500010, R295. -/
  | strbRegPre (c : Cond) (u w : Bool) (rn rd : Reg) (amt : BitVec 5) (k : ShiftKind) (rm : Reg)
  /-- LDRB, match 0x07500000 mask 0x0F500010, R294. -/
  | ldrbRegPre (c : Cond) (u w : Bool) (rn rd : Reg) (amt : BitVec 5) (k : ShiftKind) (rm : Reg)
  -- ARM undefined
  /-- UNDEFINED(architecturally undefined space), match 0x06000010 mask 0x0E000010, R348. -/
  | undefArch (c : Cond) (b24 b23 b22 b21 b20 : Bool) (f16 f12 f8 : BitVec 4) (b7 b6 b5 : Bool) (f0 : BitVec 4)
  -- ARM block data transfer
  /-- STM, match 0x08000000 mask 0x0E100000, R307. -/
  | stm (c : Cond) (p u sf w : Bool) (rn : Reg) (list : BitVec 16)
  /-- LDM, match 0x08100000 mask 0x0E100000, R306. -/
  | ldm (c : Cond) (p u sf w : Bool) (rn : Reg) (list : BitVec 16)
  -- ARM branch
  /-- B, match 0x0A000000 mask 0x0F000000, R340. -/
  | b (c : Cond) (off : BitVec 24)
  /-- BL, match 0x0B000000 mask 0x0F000000, R341. -/
  | bl (c : Cond) (off : BitVec 24)
  -- ARM coprocessor data transfer (undefined)
  /-- STC, match 0x0C000000 mask 0x0E100000, R344. -/
  | stc (c : Cond) (p u n w : Bool) (rn : Reg) (crd cp : BitVec 4) (off : BitVec 8)
  /-- LDC, match 0x0C100000 mask 0x0E100000, R344. -/
  | ldc (c : Cond) (p u n w : Bool) (rn : Reg) (crd cp : BitVec 4) (off : BitVec 8)
  -- ARM coprocessor data operation (undefined)
  /-- CDP, match 0x0E000000 mask 0x0F000010, R345. -/
  | cdp (c : Cond) (op1 crn crd cp : BitVec 4) (op2 : BitVec 3) (crm : BitVec 4)
  -- ARM coprocessor register transfer (undefined)
  /-- MCR, match 0x0E000010 mask 0x0F100010, R346. -/
  | mcr (c : Cond) (op1 : BitVec 3) (crn : BitVec 4) (rd : Reg) (cp : BitVec 4) (op2 : BitVec 3) (crm : BitVec 4)
  /-- MRC, match 0x0E100010 mask 0x0F100010, R347. -/
  | mrc (c : Cond) (op1 : BitVec 3) (crn : BitVec 4) (rd : Reg) (cp : BitVec 4) (op2 : BitVec 3) (crm : BitVec 4)
  -- ARM software interrupt
  /-- SWI, match 0x0F000000 mask 0x0F000000, R343. -/
  | swi (c : Cond) (cmt : BitVec 24)
  -- Thumb format 1, move shifted register
  /-- LSL, match 0x0000 mask 0xF800, R371. -/
  | tLslImm (off : BitVec 5) (rs rd : LowReg)
  /-- LSR, match 0x0800 mask 0xF800, R372. -/
  | tLsrImm (off : BitVec 5) (rs rd : LowReg)
  /-- ASR, match 0x1000 mask 0xF800, R373. -/
  | tAsrImm (off : BitVec 5) (rs rd : LowReg)
  -- Thumb format 2, add/subtract register
  /-- ADD, match 0x1800 mask 0xFE00, R374. -/
  | tAddReg (rn rs rd : LowReg)
  /-- SUB, match 0x1A00 mask 0xFE00, R375. -/
  | tSubReg (rn rs rd : LowReg)
  -- Thumb format 2, add/subtract 3-bit immediate
  /-- ADD, match 0x1C00 mask 0xFE00, R376. -/
  | tAddImm3 (imm : BitVec 3) (rs rd : LowReg)
  /-- SUB, match 0x1E00 mask 0xFE00, R377. -/
  | tSubImm3 (imm : BitVec 3) (rs rd : LowReg)
  -- Thumb format 3, immediate
  /-- MOV, match 0x2000 mask 0xF800, R378. -/
  | tMovImm (rd : LowReg) (imm : BitVec 8)
  /-- CMP, match 0x2800 mask 0xF800, R379. -/
  | tCmpImm (rd : LowReg) (imm : BitVec 8)
  /-- ADD, match 0x3000 mask 0xF800, R380. -/
  | tAddImm8 (rd : LowReg) (imm : BitVec 8)
  /-- SUB, match 0x3800 mask 0xF800, R381. -/
  | tSubImm8 (rd : LowReg) (imm : BitVec 8)
  -- Thumb format 4, ALU operation
  /-- AND, match 0x4000 mask 0xFFC0, R382. -/
  | tAnd (rs rd : LowReg)
  /-- EOR, match 0x4040 mask 0xFFC0, R383. -/
  | tEor (rs rd : LowReg)
  /-- LSL, match 0x4080 mask 0xFFC0, R384. -/
  | tLslReg (rs rd : LowReg)
  /-- LSR, match 0x40C0 mask 0xFFC0, R385. -/
  | tLsrReg (rs rd : LowReg)
  /-- ASR, match 0x4100 mask 0xFFC0, R386. -/
  | tAsrReg (rs rd : LowReg)
  /-- ADC, match 0x4140 mask 0xFFC0, R387. -/
  | tAdc (rs rd : LowReg)
  /-- SBC, match 0x4180 mask 0xFFC0, R388. -/
  | tSbc (rs rd : LowReg)
  /-- ROR, match 0x41C0 mask 0xFFC0, R389. -/
  | tRorReg (rs rd : LowReg)
  /-- TST, match 0x4200 mask 0xFFC0, R390. -/
  | tTst (rs rd : LowReg)
  /-- NEG, match 0x4240 mask 0xFFC0, R391. -/
  | tNeg (rs rd : LowReg)
  /-- CMP, match 0x4280 mask 0xFFC0, R392. -/
  | tCmpReg (rs rd : LowReg)
  /-- CMN, match 0x42C0 mask 0xFFC0, R393. -/
  | tCmn (rs rd : LowReg)
  /-- ORR, match 0x4300 mask 0xFFC0, R394. -/
  | tOrr (rs rd : LowReg)
  /-- MUL, match 0x4340 mask 0xFFC0, R395. -/
  | tMul (rs rd : LowReg)
  /-- BIC, match 0x4380 mask 0xFFC0, R396. -/
  | tBic (rs rd : LowReg)
  /-- MVN, match 0x43C0 mask 0xFFC0, R397. -/
  | tMvn (rs rd : LowReg)
  -- Thumb format 5, high register / branch exchange
  /-- ADD, match 0x4400 mask 0xFF00, R398. -/
  | tAddHi (h1 h2 : Bool) (rs rd : LowReg)
  /-- CMP, match 0x4500 mask 0xFF00, R399. -/
  | tCmpHi (h1 h2 : Bool) (rs rd : LowReg)
  /-- MOV, match 0x4600 mask 0xFF00, R400. -/
  | tMovHi (h1 h2 : Bool) (rs rd : LowReg)
  /-- BX, match 0x4700 mask 0xFF00, R401. -/
  | tBx (h1 h2 : Bool) (rs rd : LowReg)
  -- Thumb format 6, PC-relative load
  /-- LDR, match 0x4800 mask 0xF800, R421. -/
  | tLdrPc (rd : LowReg) (off : BitVec 8)
  -- Thumb format 7, load/store register offset
  /-- STR, match 0x5000 mask 0xFE00, R422. -/
  | tStrReg (ro rb rd : LowReg)
  -- Thumb format 8, load/store sign-extended byte/halfword
  /-- STRH, match 0x5200 mask 0xFE00, R426. -/
  | tStrhReg (ro rb rd : LowReg)
  -- Thumb format 7, load/store register offset
  /-- STRB, match 0x5400 mask 0xFE00, R423. -/
  | tStrbReg (ro rb rd : LowReg)
  -- Thumb format 8, load/store sign-extended byte/halfword
  /-- LDRSB, match 0x5600 mask 0xFE00, R427. -/
  | tLdrsbReg (ro rb rd : LowReg)
  -- Thumb format 7, load/store register offset
  /-- LDR, match 0x5800 mask 0xFE00, R424. -/
  | tLdrReg (ro rb rd : LowReg)
  -- Thumb format 8, load/store sign-extended byte/halfword
  /-- LDRH, match 0x5A00 mask 0xFE00, R428. -/
  | tLdrhReg (ro rb rd : LowReg)
  -- Thumb format 7, load/store register offset
  /-- LDRB, match 0x5C00 mask 0xFE00, R425. -/
  | tLdrbReg (ro rb rd : LowReg)
  -- Thumb format 8, load/store sign-extended byte/halfword
  /-- LDRSH, match 0x5E00 mask 0xFE00, R429. -/
  | tLdrshReg (ro rb rd : LowReg)
  -- Thumb format 9, load/store immediate offset
  /-- STR, match 0x6000 mask 0xF800, R430. -/
  | tStrImm (off : BitVec 5) (rb rd : LowReg)
  /-- LDR, match 0x6800 mask 0xF800, R431. -/
  | tLdrImm (off : BitVec 5) (rb rd : LowReg)
  /-- STRB, match 0x7000 mask 0xF800, R432. -/
  | tStrbImm (off : BitVec 5) (rb rd : LowReg)
  /-- LDRB, match 0x7800 mask 0xF800, R433. -/
  | tLdrbImm (off : BitVec 5) (rb rd : LowReg)
  -- Thumb format 10, load/store halfword
  /-- STRH, match 0x8000 mask 0xF800, R434. -/
  | tStrhImm (off : BitVec 5) (rb rd : LowReg)
  /-- LDRH, match 0x8800 mask 0xF800, R435. -/
  | tLdrhImm (off : BitVec 5) (rb rd : LowReg)
  -- Thumb format 11, SP-relative load/store
  /-- STR, match 0x9000 mask 0xF800, R436. -/
  | tStrSp (rd : LowReg) (off : BitVec 8)
  /-- LDR, match 0x9800 mask 0xF800, R437. -/
  | tLdrSp (rd : LowReg) (off : BitVec 8)
  -- Thumb format 12, load address from PC
  /-- ADD, match 0xA000 mask 0xF800, R438. -/
  | tAddPc (rd : LowReg) (off : BitVec 8)
  -- Thumb format 12, load address from SP
  /-- ADD, match 0xA800 mask 0xF800, R439. -/
  | tAddSp (rd : LowReg) (off : BitVec 8)
  -- Thumb format 13, add offset to SP
  /-- ADD, match 0xB000 mask 0xFF80, R440. -/
  | tSpAdd (off : BitVec 7)
  /-- SUB, match 0xB080 mask 0xFF80, R441. -/
  | tSpSub (off : BitVec 7)
  -- Thumb undefined
  /-- UNDEFINED(thumb 0xB1-0xBF space), match 0xB100 mask 0xFF00, R475. -/
  | tUndefB1 (low : BitVec 8)
  -- Thumb format 14, push/pop
  /-- PUSH, match 0xB400 mask 0xFE00, R442. -/
  | tPush (r : Bool) (list : BitVec 8)
  -- Thumb undefined
  /-- UNDEFINED(thumb 0xB1-0xBF space), match 0xB800 mask 0xFE00, R475. -/
  | tUndefB8 (low : BitVec 9)
  -- Thumb format 14, push/pop
  /-- POP, match 0xBC00 mask 0xFE00, R443. -/
  | tPop (r : Bool) (list : BitVec 8)
  -- Thumb undefined
  /-- UNDEFINED(thumb 0xB1-0xBF space), match 0xB200 mask 0xF200, R475. -/
  | tUndefB2 (b11 b10 : Bool) (low : BitVec 9)
  -- Thumb format 15, multiple load/store
  /-- STMIA, match 0xC000 mask 0xF800, R444. -/
  | tStmia (rb : LowReg) (list : BitVec 8)
  /-- LDMIA, match 0xC800 mask 0xF800, R445. -/
  | tLdmia (rb : LowReg) (list : BitVec 8)
  -- Thumb format 16, conditional branch
  /-- B<cond>, match 0xD000 mask 0xF800, R470. -/
  | tBcondD0 (cb : BitVec 3) (off : BitVec 8)
  /-- B<cond>, match 0xD800 mask 0xFC00, R470. -/
  | tBcondD8 (cb : BitVec 2) (off : BitVec 8)
  /-- B<cond>, match 0xDC00 mask 0xFE00, R470. -/
  | tBcondDC (cb : BitVec 1) (off : BitVec 8)
  -- Thumb undefined
  /-- UNDEFINED(thumb cond 1110), match 0xDE00 mask 0xFF00, R475. -/
  | tUndefDE (low : BitVec 8)
  -- Thumb format 17, software interrupt
  /-- SWI, match 0xDF00 mask 0xFF00, R471. -/
  | tSwi (val : BitVec 8)
  -- Thumb format 18, unconditional branch
  /-- B, match 0xE000 mask 0xF800, R472. -/
  | tB (off : BitVec 11)
  -- Thumb undefined
  /-- UNDEFINED(thumb 0xE8-0xEF, BLX suffix space), match 0xE800 mask 0xF800, R475. -/
  | tUndefE8 (low : BitVec 11)
  -- Thumb format 19, long branch with link
  /-- BL (first half), match 0xF000 mask 0xF800, R473. -/
  | tBlFirst (off : BitVec 11)
  /-- BL (second half), match 0xF800 mask 0xF800, R474. -/
  | tBlSecond (off : BitVec 11)
  deriving DecidableEq, Repr

end Sys2Proof
end

