-- ==== Sys2Proof/Decode.lean ====
section
/-! DEFINITION. Decoding and encoding (30_encoding.md). A word is first cut into the fields its format
tables are written in (`ArmParts`, `ThumbParts`); the decoders branch on the fixed bits alone, in the
order of R136 and R159, and are total. The encoder is written from the opcode table's rows. -/

namespace Sys2Proof

/-! ## Condition and shift codes -/

/-- The condition a 4-bit field names (30_encoding.md R123). -/
def condOfBits (b : BitVec 4) : Cond :=
  match b.toNat with
  | 0 => .eq | 1 => .ne | 2 => .cs | 3 => .cc | 4 => .mi | 5 => .pl | 6 => .vs | 7 => .vc
  | 8 => .hi | 9 => .ls | 10 => .ge | 11 => .lt | 12 => .gt | 13 => .le | 14 => .al | _ => .nv

/-- The 4-bit field of a condition (30_encoding.md R123). -/
def condBits : Cond → BitVec 4
  | .eq => 0 | .ne => 1 | .cs => 2 | .cc => 3 | .mi => 4 | .pl => 5 | .vs => 6 | .vc => 7
  | .hi => 8 | .ls => 9 | .ge => 10 | .lt => 11 | .gt => 12 | .le => 13 | .al => 14 | .nv => 15

/-- The shift kind of bits 6:5 (30_encoding.md R125). -/
def shiftOfBits : Bool → Bool → ShiftKind
  | false, false => .lsl | false, true => .lsr | true, false => .asr | true, true => .ror

/-- Bit 6 of a shift kind. -/
def shiftBit1 : ShiftKind → Bool
  | .lsl => false | .lsr => false | .asr => true | .ror => true

/-- Bit 5 of a shift kind. -/
def shiftBit0 : ShiftKind → Bool
  | .lsl => false | .lsr => true | .asr => false | .ror => true

/-! ## The fields of a word -/

/-- An ARM word cut where the formats of 30_encoding.md R125..R135 cut it: `b<n>` is bit n, `f<n>` the
four bits from n up. -/
structure ArmParts where
  cond : BitVec 4
  b27 : Bool
  b26 : Bool
  b25 : Bool
  b24 : Bool
  b23 : Bool
  b22 : Bool
  b21 : Bool
  b20 : Bool
  f16 : BitVec 4
  f12 : BitVec 4
  f8 : BitVec 4
  b7 : Bool
  b6 : Bool
  b5 : Bool
  b4 : Bool
  f0 : BitVec 4
  deriving DecidableEq, Repr

/-- The word of its parts. -/
def ArmParts.toWord (p : ArmParts) : Word :=
  p.cond
    ++ BitVec.ofBool p.b27 ++ BitVec.ofBool p.b26 ++ BitVec.ofBool p.b25 ++ BitVec.ofBool p.b24
    ++ BitVec.ofBool p.b23 ++ BitVec.ofBool p.b22 ++ BitVec.ofBool p.b21 ++ BitVec.ofBool p.b20
    ++ p.f16 ++ p.f12 ++ p.f8
    ++ BitVec.ofBool p.b7 ++ BitVec.ofBool p.b6 ++ BitVec.ofBool p.b5 ++ BitVec.ofBool p.b4
    ++ p.f0

/-- The parts of a word. -/
def ArmParts.ofWord (w : Word) : ArmParts :=
  { cond := w.extractLsb' 28 4
    b27 := w.getLsbD 27, b26 := w.getLsbD 26, b25 := w.getLsbD 25, b24 := w.getLsbD 24
    b23 := w.getLsbD 23, b22 := w.getLsbD 22, b21 := w.getLsbD 21, b20 := w.getLsbD 20
    f16 := w.extractLsb' 16 4, f12 := w.extractLsb' 12 4, f8 := w.extractLsb' 8 4
    b7 := w.getLsbD 7, b6 := w.getLsbD 6, b5 := w.getLsbD 5, b4 := w.getLsbD 4
    f0 := w.extractLsb' 0 4 }

/-- A Thumb halfword cut where the formats of 30_encoding.md R140..R158 cut it: `b<n>` is bit n, `f<n>`
the three bits from n up. -/
structure ThumbParts where
  b15 : Bool
  b14 : Bool
  b13 : Bool
  b12 : Bool
  b11 : Bool
  b10 : Bool
  b9 : Bool
  b8 : Bool
  b7 : Bool
  b6 : Bool
  f3 : BitVec 3
  f0 : BitVec 3
  deriving DecidableEq, Repr

/-- The halfword of its parts. -/
def ThumbParts.toHalf (p : ThumbParts) : Half :=
  BitVec.ofBool p.b15 ++ BitVec.ofBool p.b14 ++ BitVec.ofBool p.b13 ++ BitVec.ofBool p.b12
    ++ BitVec.ofBool p.b11 ++ BitVec.ofBool p.b10 ++ BitVec.ofBool p.b9 ++ BitVec.ofBool p.b8
    ++ BitVec.ofBool p.b7 ++ BitVec.ofBool p.b6 ++ p.f3 ++ p.f0

/-- The parts of a halfword. -/
def ThumbParts.ofHalf (h : Half) : ThumbParts :=
  { b15 := h.getLsbD 15, b14 := h.getLsbD 14, b13 := h.getLsbD 13, b12 := h.getLsbD 12
    b11 := h.getLsbD 11, b10 := h.getLsbD 10, b9 := h.getLsbD 9, b8 := h.getLsbD 8
    b7 := h.getLsbD 7, b6 := h.getLsbD 6, f3 := h.extractLsb' 3 3, f0 := h.extractLsb' 0 3 }

/-! ## Fields that span several parts (30_encoding.md R161) -/

/-- Bits 23:21. -/
def ArmParts.bits23_21 (p : ArmParts) : BitVec 3 :=
  BitVec.ofBool p.b23 ++ BitVec.ofBool p.b22 ++ BitVec.ofBool p.b21

/-- Bits 23:20. -/
def ArmParts.bits23_20 (p : ArmParts) : BitVec 4 :=
  BitVec.ofBool p.b23 ++ BitVec.ofBool p.b22 ++ BitVec.ofBool p.b21 ++ BitVec.ofBool p.b20

/-- Bits 23:0. -/
def ArmParts.bits23_0 (p : ArmParts) : BitVec 24 :=
  BitVec.ofBool p.b23 ++ BitVec.ofBool p.b22 ++ BitVec.ofBool p.b21 ++ BitVec.ofBool p.b20 ++ p.f16 ++ p.f12 ++ p.f8 ++ BitVec.ofBool p.b7 ++ BitVec.ofBool p.b6 ++ BitVec.ofBool p.b5 ++ BitVec.ofBool p.b4 ++ p.f0

/-- Bits 19:8. -/
def ArmParts.bits19_8 (p : ArmParts) : BitVec 12 :=
  p.f16 ++ p.f12 ++ p.f8

/-- Bits 15:0. -/
def ArmParts.bits15_0 (p : ArmParts) : BitVec 16 :=
  p.f12 ++ p.f8 ++ BitVec.ofBool p.b7 ++ BitVec.ofBool p.b6 ++ BitVec.ofBool p.b5 ++ BitVec.ofBool p.b4 ++ p.f0

/-- Bits 11:7. -/
def ArmParts.bits11_7 (p : ArmParts) : BitVec 5 :=
  p.f8 ++ BitVec.ofBool p.b7

/-- Bits 11:0. -/
def ArmParts.bits11_0 (p : ArmParts) : BitVec 12 :=
  p.f8 ++ BitVec.ofBool p.b7 ++ BitVec.ofBool p.b6 ++ BitVec.ofBool p.b5 ++ BitVec.ofBool p.b4 ++ p.f0

/-- Bits 7:5. -/
def ArmParts.bits7_5 (p : ArmParts) : BitVec 3 :=
  BitVec.ofBool p.b7 ++ BitVec.ofBool p.b6 ++ BitVec.ofBool p.b5

/-- Bits 7:0. -/
def ArmParts.bits7_0 (p : ArmParts) : BitVec 8 :=
  BitVec.ofBool p.b7 ++ BitVec.ofBool p.b6 ++ BitVec.ofBool p.b5 ++ BitVec.ofBool p.b4 ++ p.f0

/-- Bits 10:8. -/
def ThumbParts.bits10_8 (p : ThumbParts) : BitVec 3 :=
  BitVec.ofBool p.b10 ++ BitVec.ofBool p.b9 ++ BitVec.ofBool p.b8

/-- Bits 10:6. -/
def ThumbParts.bits10_6 (p : ThumbParts) : BitVec 5 :=
  BitVec.ofBool p.b10 ++ BitVec.ofBool p.b9 ++ BitVec.ofBool p.b8 ++ BitVec.ofBool p.b7 ++ BitVec.ofBool p.b6

/-- Bits 10:0. -/
def ThumbParts.bits10_0 (p : ThumbParts) : BitVec 11 :=
  BitVec.ofBool p.b10 ++ BitVec.ofBool p.b9 ++ BitVec.ofBool p.b8 ++ BitVec.ofBool p.b7 ++ BitVec.ofBool p.b6 ++ p.f3 ++ p.f0

/-- Bits 9:8. -/
def ThumbParts.bits9_8 (p : ThumbParts) : BitVec 2 :=
  BitVec.ofBool p.b9 ++ BitVec.ofBool p.b8

/-- Bits 8:8. -/
def ThumbParts.bits8_8 (p : ThumbParts) : BitVec 1 :=
  BitVec.ofBool p.b8

/-- Bits 8:6. -/
def ThumbParts.bits8_6 (p : ThumbParts) : BitVec 3 :=
  BitVec.ofBool p.b8 ++ BitVec.ofBool p.b7 ++ BitVec.ofBool p.b6

/-- Bits 8:0. -/
def ThumbParts.bits8_0 (p : ThumbParts) : BitVec 9 :=
  BitVec.ofBool p.b8 ++ BitVec.ofBool p.b7 ++ BitVec.ofBool p.b6 ++ p.f3 ++ p.f0

/-- Bits 7:0. -/
def ThumbParts.bits7_0 (p : ThumbParts) : BitVec 8 :=
  BitVec.ofBool p.b7 ++ BitVec.ofBool p.b6 ++ p.f3 ++ p.f0

/-- Bits 6:0. -/
def ThumbParts.bits6_0 (p : ThumbParts) : BitVec 7 :=
  BitVec.ofBool p.b6 ++ p.f3 ++ p.f0

/-! ## The ARM decoder (30_encoding.md R136) -/

/-- Data processing, operand shifted by an immediate (30_encoding.md R125): the opcode of bits 24:21. The
S = 0 words of TST, TEQ, CMP, CMN never come here. -/
def decodeDpImmShift (p : ArmParts) : Instr :=
  match p.b24, p.b23, p.b22, p.b21 with
  | false, false, false, false => .andImmShift (condOfBits p.cond) p.b20 p.f16 p.f12 p.bits11_7 (shiftOfBits p.b6 p.b5) p.f0
  | false, false, false, true => .eorImmShift (condOfBits p.cond) p.b20 p.f16 p.f12 p.bits11_7 (shiftOfBits p.b6 p.b5) p.f0
  | false, false, true, false => .subImmShift (condOfBits p.cond) p.b20 p.f16 p.f12 p.bits11_7 (shiftOfBits p.b6 p.b5) p.f0
  | false, false, true, true => .rsbImmShift (condOfBits p.cond) p.b20 p.f16 p.f12 p.bits11_7 (shiftOfBits p.b6 p.b5) p.f0
  | false, true, false, false => .addImmShift (condOfBits p.cond) p.b20 p.f16 p.f12 p.bits11_7 (shiftOfBits p.b6 p.b5) p.f0
  | false, true, false, true => .adcImmShift (condOfBits p.cond) p.b20 p.f16 p.f12 p.bits11_7 (shiftOfBits p.b6 p.b5) p.f0
  | false, true, true, false => .sbcImmShift (condOfBits p.cond) p.b20 p.f16 p.f12 p.bits11_7 (shiftOfBits p.b6 p.b5) p.f0
  | false, true, true, true => .rscImmShift (condOfBits p.cond) p.b20 p.f16 p.f12 p.bits11_7 (shiftOfBits p.b6 p.b5) p.f0
  | true, false, false, false => .tstImmShift (condOfBits p.cond) p.f16 p.f12 p.bits11_7 (shiftOfBits p.b6 p.b5) p.f0
  | true, false, false, true => .teqImmShift (condOfBits p.cond) p.f16 p.f12 p.bits11_7 (shiftOfBits p.b6 p.b5) p.f0
  | true, false, true, false => .cmpImmShift (condOfBits p.cond) p.f16 p.f12 p.bits11_7 (shiftOfBits p.b6 p.b5) p.f0
  | true, false, true, true => .cmnImmShift (condOfBits p.cond) p.f16 p.f12 p.bits11_7 (shiftOfBits p.b6 p.b5) p.f0
  | true, true, false, false => .orrImmShift (condOfBits p.cond) p.b20 p.f16 p.f12 p.bits11_7 (shiftOfBits p.b6 p.b5) p.f0
  | true, true, false, true => .movImmShift (condOfBits p.cond) p.b20 p.f16 p.f12 p.bits11_7 (shiftOfBits p.b6 p.b5) p.f0
  | true, true, true, false => .bicImmShift (condOfBits p.cond) p.b20 p.f16 p.f12 p.bits11_7 (shiftOfBits p.b6 p.b5) p.f0
  | true, true, true, true => .mvnImmShift (condOfBits p.cond) p.b20 p.f16 p.f12 p.bits11_7 (shiftOfBits p.b6 p.b5) p.f0

/-- Data processing, operand shifted by a register (30_encoding.md R125). -/
def decodeDpRegShift (p : ArmParts) : Instr :=
  match p.b24, p.b23, p.b22, p.b21 with
  | false, false, false, false => .andRegShift (condOfBits p.cond) p.b20 p.f16 p.f12 p.f8 (shiftOfBits p.b6 p.b5) p.f0
  | false, false, false, true => .eorRegShift (condOfBits p.cond) p.b20 p.f16 p.f12 p.f8 (shiftOfBits p.b6 p.b5) p.f0
  | false, false, true, false => .subRegShift (condOfBits p.cond) p.b20 p.f16 p.f12 p.f8 (shiftOfBits p.b6 p.b5) p.f0
  | false, false, true, true => .rsbRegShift (condOfBits p.cond) p.b20 p.f16 p.f12 p.f8 (shiftOfBits p.b6 p.b5) p.f0
  | false, true, false, false => .addRegShift (condOfBits p.cond) p.b20 p.f16 p.f12 p.f8 (shiftOfBits p.b6 p.b5) p.f0
  | false, true, false, true => .adcRegShift (condOfBits p.cond) p.b20 p.f16 p.f12 p.f8 (shiftOfBits p.b6 p.b5) p.f0
  | false, true, true, false => .sbcRegShift (condOfBits p.cond) p.b20 p.f16 p.f12 p.f8 (shiftOfBits p.b6 p.b5) p.f0
  | false, true, true, true => .rscRegShift (condOfBits p.cond) p.b20 p.f16 p.f12 p.f8 (shiftOfBits p.b6 p.b5) p.f0
  | true, false, false, false => .tstRegShift (condOfBits p.cond) p.f16 p.f12 p.f8 (shiftOfBits p.b6 p.b5) p.f0
  | true, false, false, true => .teqRegShift (condOfBits p.cond) p.f16 p.f12 p.f8 (shiftOfBits p.b6 p.b5) p.f0
  | true, false, true, false => .cmpRegShift (condOfBits p.cond) p.f16 p.f12 p.f8 (shiftOfBits p.b6 p.b5) p.f0
  | true, false, true, true => .cmnRegShift (condOfBits p.cond) p.f16 p.f12 p.f8 (shiftOfBits p.b6 p.b5) p.f0
  | true, true, false, false => .orrRegShift (condOfBits p.cond) p.b20 p.f16 p.f12 p.f8 (shiftOfBits p.b6 p.b5) p.f0
  | true, true, false, true => .movRegShift (condOfBits p.cond) p.b20 p.f16 p.f12 p.f8 (shiftOfBits p.b6 p.b5) p.f0
  | true, true, true, false => .bicRegShift (condOfBits p.cond) p.b20 p.f16 p.f12 p.f8 (shiftOfBits p.b6 p.b5) p.f0
  | true, true, true, true => .mvnRegShift (condOfBits p.cond) p.b20 p.f16 p.f12 p.f8 (shiftOfBits p.b6 p.b5) p.f0

/-- Data processing, immediate operand (30_encoding.md R125). -/
def decodeDpImm (p : ArmParts) : Instr :=
  match p.b24, p.b23, p.b22, p.b21 with
  | false, false, false, false => .andImm (condOfBits p.cond) p.b20 p.f16 p.f12 p.f8 p.bits7_0
  | false, false, false, true => .eorImm (condOfBits p.cond) p.b20 p.f16 p.f12 p.f8 p.bits7_0
  | false, false, true, false => .subImm (condOfBits p.cond) p.b20 p.f16 p.f12 p.f8 p.bits7_0
  | false, false, true, true => .rsbImm (condOfBits p.cond) p.b20 p.f16 p.f12 p.f8 p.bits7_0
  | false, true, false, false => .addImm (condOfBits p.cond) p.b20 p.f16 p.f12 p.f8 p.bits7_0
  | false, true, false, true => .adcImm (condOfBits p.cond) p.b20 p.f16 p.f12 p.f8 p.bits7_0
  | false, true, true, false => .sbcImm (condOfBits p.cond) p.b20 p.f16 p.f12 p.f8 p.bits7_0
  | false, true, true, true => .rscImm (condOfBits p.cond) p.b20 p.f16 p.f12 p.f8 p.bits7_0
  | true, false, false, false => .tstImm (condOfBits p.cond) p.f16 p.f12 p.f8 p.bits7_0
  | true, false, false, true => .teqImm (condOfBits p.cond) p.f16 p.f12 p.f8 p.bits7_0
  | true, false, true, false => .cmpImm (condOfBits p.cond) p.f16 p.f12 p.f8 p.bits7_0
  | true, false, true, true => .cmnImm (condOfBits p.cond) p.f16 p.f12 p.f8 p.bits7_0
  | true, true, false, false => .orrImm (condOfBits p.cond) p.b20 p.f16 p.f12 p.f8 p.bits7_0
  | true, true, false, true => .movImm (condOfBits p.cond) p.b20 p.f16 p.f12 p.f8 p.bits7_0
  | true, true, true, false => .bicImm (condOfBits p.cond) p.b20 p.f16 p.f12 p.f8 p.bits7_0
  | true, true, true, true => .mvnImm (condOfBits p.cond) p.b20 p.f16 p.f12 p.f8 p.bits7_0

/-- The multiply and swap space, bits 27:25 = 000 and 7:4 = 1001 (30_encoding.md R127, R128, R138). -/
def decodeMulSwap (p : ArmParts) : Instr :=
  match p.b24, p.b23, p.b22, p.b21, p.b20 with
  | false, false, false, false, _ => .mul (condOfBits p.cond) p.b20 p.f16 p.f12 p.f8 p.f0
  | false, false, false, true, _ => .mla (condOfBits p.cond) p.b20 p.f16 p.f12 p.f8 p.f0
  | false, false, true, _, _ => .undefMulSwap00400090 (condOfBits p.cond) p.b21 p.b20 p.f16 p.f12 p.f8 p.f0
  | false, true, false, false, _ => .umull (condOfBits p.cond) p.b20 p.f16 p.f12 p.f8 p.f0
  | false, true, false, true, _ => .umlal (condOfBits p.cond) p.b20 p.f16 p.f12 p.f8 p.f0
  | false, true, true, false, _ => .smull (condOfBits p.cond) p.b20 p.f16 p.f12 p.f8 p.f0
  | false, true, true, true, _ => .smlal (condOfBits p.cond) p.b20 p.f16 p.f12 p.f8 p.f0
  | true, false, false, false, false => .swp (condOfBits p.cond) p.f16 p.f12 p.f8 p.f0
  | true, false, true, false, false => .swpb (condOfBits p.cond) p.f16 p.f12 p.f8 p.f0
  | true, false, _, false, true => .undefMulSwap01100090 (condOfBits p.cond) p.b22 p.f16 p.f12 p.f8 p.f0
  | true, false, _, true, _ => .undefMulSwap01200090 (condOfBits p.cond) p.b22 p.b20 p.f16 p.f12 p.f8 p.f0
  | true, true, _, _, _ => .undefMulSwap01800090 (condOfBits p.cond) p.b22 p.b21 p.b20 p.f16 p.f12 p.f8 p.f0

/-- The halfword transfers, bits 27:25 = 000, bit 7 = bit 4 = 1, bits 6:5 not 00 (30_encoding.md R130, R138 (c)). -/
def decodeHalfword (p : ArmParts) : Instr :=
  match p.b20, p.b6, p.b5, p.b22 with
  | false, true, _, _ => .undefHalfStore (condOfBits p.cond) p.b24 p.b23 p.b22 p.b21 p.f16 p.f12 p.f8 p.b5 p.f0
  | false, false, _, false => .strhReg (condOfBits p.cond) p.b24 p.b23 p.b21 p.f16 p.f12 p.f8 p.f0
  | false, false, _, true => .strhImm (condOfBits p.cond) p.b24 p.b23 p.b21 p.f16 p.f12 p.f8 p.f0
  | true, true, false, false => .ldrsbReg (condOfBits p.cond) p.b24 p.b23 p.b21 p.f16 p.f12 p.f8 p.f0
  | true, true, false, true => .ldrsbImm (condOfBits p.cond) p.b24 p.b23 p.b21 p.f16 p.f12 p.f8 p.f0
  | true, true, true, false => .ldrshReg (condOfBits p.cond) p.b24 p.b23 p.b21 p.f16 p.f12 p.f8 p.f0
  | true, true, true, true => .ldrshImm (condOfBits p.cond) p.b24 p.b23 p.b21 p.f16 p.f12 p.f8 p.f0
  | true, false, _, false => .ldrhReg (condOfBits p.cond) p.b24 p.b23 p.b21 p.f16 p.f12 p.f8 p.f0
  | true, false, _, true => .ldrhImm (condOfBits p.cond) p.b24 p.b23 p.b21 p.f16 p.f12 p.f8 p.f0

/-- The misc space, bits 27:23 = 00010, bit 20 = 0, not 7:4 = 1xx1 (30_encoding.md R126, R129, R138 (d)). -/
def decodeMisc (p : ArmParts) : Instr :=
  match p.b7, p.b6, p.b5, p.b4, p.b22, p.b21 with
  | false, false, false, false, _, false => .mrs (condOfBits p.cond) p.b22 p.f16 p.f12 p.f8 p.f0
  | false, false, false, false, _, true => .msrReg (condOfBits p.cond) p.b22 p.f16 p.f12 p.f8 p.f0
  | false, false, true, false, _, _ => .undefMisc01000020 (condOfBits p.cond) p.b22 p.b21 p.f16 p.f12 p.f8 p.f0
  | false, true, _, false, _, _ => .undefMisc01000040 (condOfBits p.cond) p.b22 p.b21 p.f16 p.f12 p.f8 p.b5 p.f0
  | true, _, _, false, _, _ => .undefMisc01000080 (condOfBits p.cond) p.b22 p.b21 p.f16 p.f12 p.f8 p.b6 p.b5 p.f0
  | _, _, _, true, false, false => .undefMisc01000010 (condOfBits p.cond) p.f16 p.f12 p.f8 p.b6 p.b5 p.f0
  | _, false, false, true, false, true => .bx (condOfBits p.cond) p.bits19_8 p.f0
  | _, false, true, true, false, true => .undefMisc01200030 (condOfBits p.cond) p.f16 p.f12 p.f8 p.f0
  | _, true, _, true, false, true => .undefMisc01200050 (condOfBits p.cond) p.f16 p.f12 p.f8 p.b5 p.f0
  | _, _, _, true, true, _ => .undefMisc01400010 (condOfBits p.cond) p.b21 p.f16 p.f12 p.f8 p.b6 p.b5 p.f0

/-- Single data transfer, immediate offset, bits 27:25 = 010 (30_encoding.md R131): P, W, B, L. -/
def decodeTransferImm (p : ArmParts) : Instr :=
  match p.b24, p.b21, p.b22, p.b20 with
  | false, false, false, false => .strImmPost (condOfBits p.cond) p.b23 p.f16 p.f12 p.bits11_0
  | false, false, false, true => .ldrImmPost (condOfBits p.cond) p.b23 p.f16 p.f12 p.bits11_0
  | false, true, false, false => .strtImm (condOfBits p.cond) p.b23 p.f16 p.f12 p.bits11_0
  | false, true, false, true => .ldrtImm (condOfBits p.cond) p.b23 p.f16 p.f12 p.bits11_0
  | false, false, true, false => .strbImmPost (condOfBits p.cond) p.b23 p.f16 p.f12 p.bits11_0
  | false, false, true, true => .ldrbImmPost (condOfBits p.cond) p.b23 p.f16 p.f12 p.bits11_0
  | false, true, true, false => .strbtImm (condOfBits p.cond) p.b23 p.f16 p.f12 p.bits11_0
  | false, true, true, true => .ldrbtImm (condOfBits p.cond) p.b23 p.f16 p.f12 p.bits11_0
  | true, _, false, false => .strImmPre (condOfBits p.cond) p.b23 p.b21 p.f16 p.f12 p.bits11_0
  | true, _, false, true => .ldrImmPre (condOfBits p.cond) p.b23 p.b21 p.f16 p.f12 p.bits11_0
  | true, _, true, false => .strbImmPre (condOfBits p.cond) p.b23 p.b21 p.f16 p.f12 p.bits11_0
  | true, _, true, true => .ldrbImmPre (condOfBits p.cond) p.b23 p.b21 p.f16 p.f12 p.bits11_0

/-- Single data transfer, register offset, bits 27:25 = 011 and bit 4 = 0 (30_encoding.md R131). -/
def decodeTransferReg (p : ArmParts) : Instr :=
  match p.b24, p.b21, p.b22, p.b20 with
  | false, false, false, false => .strRegPost (condOfBits p.cond) p.b23 p.f16 p.f12 p.bits11_7 (shiftOfBits p.b6 p.b5) p.f0
  | false, false, false, true => .ldrRegPost (condOfBits p.cond) p.b23 p.f16 p.f12 p.bits11_7 (shiftOfBits p.b6 p.b5) p.f0
  | false, true, false, false => .strtReg (condOfBits p.cond) p.b23 p.f16 p.f12 p.bits11_7 (shiftOfBits p.b6 p.b5) p.f0
  | false, true, false, true => .ldrtReg (condOfBits p.cond) p.b23 p.f16 p.f12 p.bits11_7 (shiftOfBits p.b6 p.b5) p.f0
  | false, false, true, false => .strbRegPost (condOfBits p.cond) p.b23 p.f16 p.f12 p.bits11_7 (shiftOfBits p.b6 p.b5) p.f0
  | false, false, true, true => .ldrbRegPost (condOfBits p.cond) p.b23 p.f16 p.f12 p.bits11_7 (shiftOfBits p.b6 p.b5) p.f0
  | false, true, true, false => .strbtReg (condOfBits p.cond) p.b23 p.f16 p.f12 p.bits11_7 (shiftOfBits p.b6 p.b5) p.f0
  | false, true, true, true => .ldrbtReg (condOfBits p.cond) p.b23 p.f16 p.f12 p.bits11_7 (shiftOfBits p.b6 p.b5) p.f0
  | true, _, false, false => .strRegPre (condOfBits p.cond) p.b23 p.b21 p.f16 p.f12 p.bits11_7 (shiftOfBits p.b6 p.b5) p.f0
  | true, _, false, true => .ldrRegPre (condOfBits p.cond) p.b23 p.b21 p.f16 p.f12 p.bits11_7 (shiftOfBits p.b6 p.b5) p.f0
  | true, _, true, false => .strbRegPre (condOfBits p.cond) p.b23 p.b21 p.f16 p.f12 p.bits11_7 (shiftOfBits p.b6 p.b5) p.f0
  | true, _, true, true => .ldrbRegPre (condOfBits p.cond) p.b23 p.b21 p.f16 p.f12 p.bits11_7 (shiftOfBits p.b6 p.b5) p.f0

/-- Bits 27:25 = 000 (30_encoding.md R136). -/
def decodeArm000 (p : ArmParts) : Instr :=
  match p.b7, p.b4, p.b6, p.b5 with
  | true, true, false, false => decodeMulSwap p
  | true, true, _, _ => decodeHalfword p
  | _, b4, _, _ =>
    match p.b24, p.b23, p.b20, b4 with
    | true, false, false, _ => decodeMisc p
    | _, _, _, false => decodeDpImmShift p
    | _, _, _, true => decodeDpRegShift p

/-- Bits 27:25 = 001 (30_encoding.md R136). -/
def decodeArm001 (p : ArmParts) : Instr :=
  match p.b24, p.b23, p.b20, p.b21 with
  | true, false, false, true => .msrImm (condOfBits p.cond) p.b22 p.f16 p.f12 p.f8 p.bits7_0
  | true, false, false, false => .undefTstImm (condOfBits p.cond) p.b22 p.f16 p.f12 p.f8 p.b7 p.b6 p.b5 p.b4 p.f0
  | _, _, _, _ => decodeDpImm p

/-- Bits 27:25 = 111 (30_encoding.md R134, R135). -/
def decodeArm111 (p : ArmParts) : Instr :=
  match p.b24, p.b4, p.b20 with
  | true, _, _ => .swi (condOfBits p.cond) p.bits23_0
  | false, false, _ => .cdp (condOfBits p.cond) p.bits23_20 p.f16 p.f12 p.f8 p.bits7_5 p.f0
  | false, true, false => .mcr (condOfBits p.cond) p.bits23_21 p.f16 p.f12 p.f8 p.bits7_5 p.f0
  | false, true, true => .mrc (condOfBits p.cond) p.bits23_21 p.f16 p.f12 p.f8 p.bits7_5 p.f0

/-- `decode_arm` of 30_encoding.md R136 on the parts of a word: the family selector is bits 27:25. -/
def decodeArmParts (p : ArmParts) : Instr :=
  match p.b27, p.b26, p.b25 with
  | false, false, false => decodeArm000 p
  | false, false, true => decodeArm001 p
  | false, true, false => decodeTransferImm p
  | false, true, true =>
    match p.b4 with
    | true => .undefArch (condOfBits p.cond) p.b24 p.b23 p.b22 p.b21 p.b20 p.f16 p.f12 p.f8 p.b7 p.b6 p.b5 p.f0
    | false => decodeTransferReg p
  | true, false, false =>
    match p.b20 with
    | false => .stm (condOfBits p.cond) p.b24 p.b23 p.b22 p.b21 p.f16 p.bits15_0
    | true => .ldm (condOfBits p.cond) p.b24 p.b23 p.b22 p.b21 p.f16 p.bits15_0
  | true, false, true =>
    match p.b24 with
    | false => .b (condOfBits p.cond) p.bits23_0
    | true => .bl (condOfBits p.cond) p.bits23_0
  | true, true, false =>
    match p.b20 with
    | false => .stc (condOfBits p.cond) p.b24 p.b23 p.b22 p.b21 p.f16 p.f12 p.f8 p.bits7_0
    | true => .ldc (condOfBits p.cond) p.b24 p.b23 p.b22 p.b21 p.f16 p.f12 p.f8 p.bits7_0
  | true, true, true => decodeArm111 p

/-- `decode_arm`, total on every 32-bit word (30_encoding.md R136). -/
def decodeArm (w : Word) : Instr := decodeArmParts (ArmParts.ofWord w)

/-! ## The Thumb decoder (30_encoding.md R159) -/

/-- Format 4 (30_encoding.md R143): the opcode of bits 9:6. -/
def decodeThumbAlu (p : ThumbParts) : Instr :=
  match p.b9, p.b8, p.b7, p.b6 with
  | false, false, false, false => .tAnd p.f3 p.f0
  | false, false, false, true => .tEor p.f3 p.f0
  | false, false, true, false => .tLslReg p.f3 p.f0
  | false, false, true, true => .tLsrReg p.f3 p.f0
  | false, true, false, false => .tAsrReg p.f3 p.f0
  | false, true, false, true => .tAdc p.f3 p.f0
  | false, true, true, false => .tSbc p.f3 p.f0
  | false, true, true, true => .tRorReg p.f3 p.f0
  | true, false, false, false => .tTst p.f3 p.f0
  | true, false, false, true => .tNeg p.f3 p.f0
  | true, false, true, false => .tCmpReg p.f3 p.f0
  | true, false, true, true => .tCmn p.f3 p.f0
  | true, true, false, false => .tOrr p.f3 p.f0
  | true, true, false, true => .tMul p.f3 p.f0
  | true, true, true, false => .tBic p.f3 p.f0
  | true, true, true, true => .tMvn p.f3 p.f0

/-- High bytes 0x00..0x3F, formats 1 to 3 (30_encoding.md R140..R142): bits 13:11, then 10 and 9. -/
def decodeThumb00 (p : ThumbParts) : Instr :=
  match p.b13, p.b12, p.b11, p.b10, p.b9 with
  | false, false, false, _, _ => .tLslImm p.bits10_6 p.f3 p.f0
  | false, false, true, _, _ => .tLsrImm p.bits10_6 p.f3 p.f0
  | false, true, false, _, _ => .tAsrImm p.bits10_6 p.f3 p.f0
  | false, true, true, false, false => .tAddReg p.bits8_6 p.f3 p.f0
  | false, true, true, false, true => .tSubReg p.bits8_6 p.f3 p.f0
  | false, true, true, true, false => .tAddImm3 p.bits8_6 p.f3 p.f0
  | false, true, true, true, true => .tSubImm3 p.bits8_6 p.f3 p.f0
  | true, false, false, _, _ => .tMovImm p.bits10_8 p.bits7_0
  | true, false, true, _, _ => .tCmpImm p.bits10_8 p.bits7_0
  | true, true, false, _, _ => .tAddImm8 p.bits10_8 p.bits7_0
  | true, true, true, _, _ => .tSubImm8 p.bits10_8 p.bits7_0

/-- High bytes 0x40..0x4F, formats 4 to 6 (30_encoding.md R143..R145): bits 11, 10, then 9 and 8. -/
def decodeThumb40 (p : ThumbParts) : Instr :=
  match p.b11, p.b10, p.b9, p.b8 with
  | false, false, _, _ => decodeThumbAlu p
  | false, true, false, false => .tAddHi p.b7 p.b6 p.f3 p.f0
  | false, true, false, true => .tCmpHi p.b7 p.b6 p.f3 p.f0
  | false, true, true, false => .tMovHi p.b7 p.b6 p.f3 p.f0
  | false, true, true, true => .tBx p.b7 p.b6 p.f3 p.f0
  | true, _, _, _ => .tLdrPc p.bits10_8 p.bits7_0

/-- High bytes 0x50..0x5F, formats 7 and 8 (30_encoding.md R146, R147): bits 11, 10, 9. -/
def decodeThumb50 (p : ThumbParts) : Instr :=
  match p.b11, p.b10, p.b9 with
  | false, false, false => .tStrReg p.bits8_6 p.f3 p.f0
  | false, false, true => .tStrhReg p.bits8_6 p.f3 p.f0
  | false, true, false => .tStrbReg p.bits8_6 p.f3 p.f0
  | false, true, true => .tLdrsbReg p.bits8_6 p.f3 p.f0
  | true, false, false => .tLdrReg p.bits8_6 p.f3 p.f0
  | true, false, true => .tLdrhReg p.bits8_6 p.f3 p.f0
  | true, true, false => .tLdrbReg p.bits8_6 p.f3 p.f0
  | true, true, true => .tLdrshReg p.bits8_6 p.f3 p.f0

/-- High bytes 0xB0..0xBF, formats 13 and 14 and the undefined space (30_encoding.md R152, R153, R159): bits
11 to 8, then 7. -/
def decodeThumbB0 (p : ThumbParts) : Instr :=
  match p.b9, p.b11, p.b10, p.b8, p.b7 with
  | true, _, _, _, _ => .tUndefB2 p.b11 p.b10 p.bits8_0
  | false, false, false, false, false => .tSpAdd p.bits6_0
  | false, false, false, false, true => .tSpSub p.bits6_0
  | false, false, false, true, _ => .tUndefB1 p.bits7_0
  | false, false, true, _, _ => .tPush p.b8 p.bits7_0
  | false, true, false, _, _ => .tUndefB8 p.bits8_0
  | false, true, true, _, _ => .tPop p.b8 p.bits7_0

/-- High bytes 0xD0..0xDF, formats 16 and 17 and cond = 1110 (30_encoding.md R155, R156): bits 11 to 8. -/
def decodeThumbD0 (p : ThumbParts) : Instr :=
  match p.b11, p.b10, p.b9, p.b8 with
  | false, _, _, _ => .tBcondD0 p.bits10_8 p.bits7_0
  | true, false, _, _ => .tBcondD8 p.bits9_8 p.bits7_0
  | true, true, false, _ => .tBcondDC p.bits8_8 p.bits7_0
  | true, true, true, false => .tUndefDE p.bits7_0
  | true, true, true, true => .tSwi p.bits7_0

/-- `decode_thumb` of 30_encoding.md R159 on the parts of a halfword, by bits 15:12 and 11. -/
def decodeThumbParts (p : ThumbParts) : Instr :=
  match p.b15, p.b14, p.b13, p.b12, p.b11 with
  | false, false, _, _, _ => decodeThumb00 p
  | false, true, false, false, _ => decodeThumb40 p
  | false, true, false, true, _ => decodeThumb50 p
  | false, true, true, false, false => .tStrImm p.bits10_6 p.f3 p.f0
  | false, true, true, false, true => .tLdrImm p.bits10_6 p.f3 p.f0
  | false, true, true, true, false => .tStrbImm p.bits10_6 p.f3 p.f0
  | false, true, true, true, true => .tLdrbImm p.bits10_6 p.f3 p.f0
  | true, false, false, false, false => .tStrhImm p.bits10_6 p.f3 p.f0
  | true, false, false, false, true => .tLdrhImm p.bits10_6 p.f3 p.f0
  | true, false, false, true, false => .tStrSp p.bits10_8 p.bits7_0
  | true, false, false, true, true => .tLdrSp p.bits10_8 p.bits7_0
  | true, false, true, false, false => .tAddPc p.bits10_8 p.bits7_0
  | true, false, true, false, true => .tAddSp p.bits10_8 p.bits7_0
  | true, false, true, true, _ => decodeThumbB0 p
  | true, true, false, false, false => .tStmia p.bits10_8 p.bits7_0
  | true, true, false, false, true => .tLdmia p.bits10_8 p.bits7_0
  | true, true, false, true, _ => decodeThumbD0 p
  | true, true, true, false, false => .tB p.bits10_0
  | true, true, true, false, true => .tUndefE8 p.bits10_0
  | true, true, true, true, false => .tBlFirst p.bits10_0
  | true, true, true, true, true => .tBlSecond p.bits10_0

/-- `decode_thumb`, total on every 16-bit value (30_encoding.md R159). -/
def decodeThumb (h : Half) : Instr := decodeThumbParts (ThumbParts.ofHalf h)

/-! ## Encoded instructions and bytes -/

/-- An encoded instruction: 32 bits in ARM state, 16 in Thumb state (30_encoding.md R162). -/
inductive Code where
  | arm (w : Word)
  | thumb (h : Half)
  deriving DecidableEq, Repr

/-- The decoder the state bit T selects (30_encoding.md R120). -/
def decode : Code → Instr
  | .arm w => decodeArm w
  | .thumb h => decodeThumb h

/-- Why a list of bytes gives no instruction. -/
inductive DecodeError where
  /-- Fewer bytes than one instruction of the state has (30_encoding.md R162). -/
  | truncated
  deriving DecidableEq, Repr

/-- The bytes of a word, lowest address first (20_memory.md R82). -/
def wordBytes (w : Word) : List Byte :=
  [w.extractLsb' 0 8, w.extractLsb' 8 8, w.extractLsb' 16 8, w.extractLsb' 24 8]

/-- The bytes of a halfword, lowest address first (20_memory.md R82). -/
def halfBytes (h : Half) : List Byte := [h.extractLsb' 0 8, h.extractLsb' 8 8]

/-- The instruction at the head of a list of bytes, and the bytes after it: four bytes in ARM state, two
in Thumb state, little endian (20_memory.md R90). Total: a list too short is rejected by name. -/
def decodeBytes (thumb : Bool) (bytes : List Byte) : Except DecodeError (Instr × List Byte) :=
  match thumb, bytes with
  | false, b0 :: b1 :: b2 :: b3 :: rest => .ok (decodeArm (b3 ++ b2 ++ b1 ++ b0), rest)
  | true, b0 :: b1 :: rest => .ok (decodeThumb (b1 ++ b0), rest)
  | _, _ => .error .truncated

/-- Whether a row of that many bits is a Thumb row: the table gives Thumb rows 16 bits. -/
def tableRowIsThumb (nbits : Nat) : Bool := decide (nbits ≤ 16)

/-- The bytes of a table word as memory holds them; bits from `nbits` up are 0. -/
def tableWordBytes (nbits w : Nat) : List Byte :=
  if tableRowIsThumb nbits then halfBytes (BitVec.ofNat 16 (w % 2 ^ nbits))
  else wordBytes (BitVec.ofNat 32 (w % 2 ^ nbits))

/-- The instruction the decoder reads from a word of the opcode table. -/
def decodeTableWord (nbits w : Nat) : Option Instr :=
  match decodeBytes (tableRowIsThumb nbits) (tableWordBytes nbits w) with
  | .ok (i, _) => some i
  | .error _ => none

/-! ## The encoder, from the rows of the opcode table -/

/-- The word of an instruction: its row's match bits, and its fields in the bits the row leaves free. -/
def encode : Instr → Code
  | .andImmShift c sf rn rd amt k rm =>
    .arm (ArmParts.toWord
      { cond := condBits c, b27 := false, b26 := false, b25 := false, b24 := false, b23 := false, b22 := false, b21 := false, b20 := sf
        f16 := rn, f12 := rd, f8 := amt.extractLsb' 1 4, b7 := amt.getLsbD 0, b6 := shiftBit1 k, b5 := shiftBit0 k, b4 := false, f0 := rm })
  | .eorImmShift c sf rn rd amt k rm =>
    .arm (ArmParts.toWord
      { cond := condBits c, b27 := false, b26 := false, b25 := false, b24 := false, b23 := false, b22 := false, b21 := true, b20 := sf
        f16 := rn, f12 := rd, f8 := amt.extractLsb' 1 4, b7 := amt.getLsbD 0, b6 := shiftBit1 k, b5 := shiftBit0 k, b4 := false, f0 := rm })
  | .subImmShift c sf rn rd amt k rm =>
    .arm (ArmParts.toWord
      { cond := condBits c, b27 := false, b26 := false, b25 := false, b24 := false, b23 := false, b22 := true, b21 := false, b20 := sf
        f16 := rn, f12 := rd, f8 := amt.extractLsb' 1 4, b7 := amt.getLsbD 0, b6 := shiftBit1 k, b5 := shiftBit0 k, b4 := false, f0 := rm })
  | .rsbImmShift c sf rn rd amt k rm =>
    .arm (ArmParts.toWord
      { cond := condBits c, b27 := false, b26 := false, b25 := false, b24 := false, b23 := false, b22 := true, b21 := true, b20 := sf
        f16 := rn, f12 := rd, f8 := amt.extractLsb' 1 4, b7 := amt.getLsbD 0, b6 := shiftBit1 k, b5 := shiftBit0 k, b4 := false, f0 := rm })
  | .addImmShift c sf rn rd amt k rm =>
    .arm (ArmParts.toWord
      { cond := condBits c, b27 := false, b26 := false, b25 := false, b24 := false, b23 := true, b22 := false, b21 := false, b20 := sf
        f16 := rn, f12 := rd, f8 := amt.extractLsb' 1 4, b7 := amt.getLsbD 0, b6 := shiftBit1 k, b5 := shiftBit0 k, b4 := false, f0 := rm })
  | .adcImmShift c sf rn rd amt k rm =>
    .arm (ArmParts.toWord
      { cond := condBits c, b27 := false, b26 := false, b25 := false, b24 := false, b23 := true, b22 := false, b21 := true, b20 := sf
        f16 := rn, f12 := rd, f8 := amt.extractLsb' 1 4, b7 := amt.getLsbD 0, b6 := shiftBit1 k, b5 := shiftBit0 k, b4 := false, f0 := rm })
  | .sbcImmShift c sf rn rd amt k rm =>
    .arm (ArmParts.toWord
      { cond := condBits c, b27 := false, b26 := false, b25 := false, b24 := false, b23 := true, b22 := true, b21 := false, b20 := sf
        f16 := rn, f12 := rd, f8 := amt.extractLsb' 1 4, b7 := amt.getLsbD 0, b6 := shiftBit1 k, b5 := shiftBit0 k, b4 := false, f0 := rm })
  | .rscImmShift c sf rn rd amt k rm =>
    .arm (ArmParts.toWord
      { cond := condBits c, b27 := false, b26 := false, b25 := false, b24 := false, b23 := true, b22 := true, b21 := true, b20 := sf
        f16 := rn, f12 := rd, f8 := amt.extractLsb' 1 4, b7 := amt.getLsbD 0, b6 := shiftBit1 k, b5 := shiftBit0 k, b4 := false, f0 := rm })
  | .mrs c r sbo rd sbzHi sbzLo =>
    .arm (ArmParts.toWord
      { cond := condBits c, b27 := false, b26 := false, b25 := false, b24 := true, b23 := false, b22 := r, b21 := false, b20 := false
        f16 := sbo, f12 := rd, f8 := sbzHi, b7 := false, b6 := false, b5 := false, b4 := false, f0 := sbzLo })
  | .msrReg c r fm sbo sbz rm =>
    .arm (ArmParts.toWord
      { cond := condBits c, b27 := false, b26 := false, b25 := false, b24 := true, b23 := false, b22 := r, b21 := true, b20 := false
        f16 := fm, f12 := sbo, f8 := sbz, b7 := false, b6 := false, b5 := false, b4 := false, f0 := rm })
  | .undefMisc01000020 c b22 b21 f16 f12 f8 f0 =>
    .arm (ArmParts.toWord
      { cond := condBits c, b27 := false, b26 := false, b25 := false, b24 := true, b23 := false, b22 := b22, b21 := b21, b20 := false
        f16 := f16, f12 := f12, f8 := f8, b7 := false, b6 := false, b5 := true, b4 := false, f0 := f0 })
  | .undefMisc01000040 c b22 b21 f16 f12 f8 b5 f0 =>
    .arm (ArmParts.toWord
      { cond := condBits c, b27 := false, b26 := false, b25 := false, b24 := true, b23 := false, b22 := b22, b21 := b21, b20 := false
        f16 := f16, f12 := f12, f8 := f8, b7 := false, b6 := true, b5 := b5, b4 := false, f0 := f0 })
  | .undefMisc01000080 c b22 b21 f16 f12 f8 b6 b5 f0 =>
    .arm (ArmParts.toWord
      { cond := condBits c, b27 := false, b26 := false, b25 := false, b24 := true, b23 := false, b22 := b22, b21 := b21, b20 := false
        f16 := f16, f12 := f12, f8 := f8, b7 := true, b6 := b6, b5 := b5, b4 := false, f0 := f0 })
  | .tstImmShift c rn rd amt k rm =>
    .arm (ArmParts.toWord
      { cond := condBits c, b27 := false, b26 := false, b25 := false, b24 := true, b23 := false, b22 := false, b21 := false, b20 := true
        f16 := rn, f12 := rd, f8 := amt.extractLsb' 1 4, b7 := amt.getLsbD 0, b6 := shiftBit1 k, b5 := shiftBit0 k, b4 := false, f0 := rm })
  | .teqImmShift c rn rd amt k rm =>
    .arm (ArmParts.toWord
      { cond := condBits c, b27 := false, b26 := false, b25 := false, b24 := true, b23 := false, b22 := false, b21 := true, b20 := true
        f16 := rn, f12 := rd, f8 := amt.extractLsb' 1 4, b7 := amt.getLsbD 0, b6 := shiftBit1 k, b5 := shiftBit0 k, b4 := false, f0 := rm })
  | .cmpImmShift c rn rd amt k rm =>
    .arm (ArmParts.toWord
      { cond := condBits c, b27 := false, b26 := false, b25 := false, b24 := true, b23 := false, b22 := true, b21 := false, b20 := true
        f16 := rn, f12 := rd, f8 := amt.extractLsb' 1 4, b7 := amt.getLsbD 0, b6 := shiftBit1 k, b5 := shiftBit0 k, b4 := false, f0 := rm })
  | .cmnImmShift c rn rd amt k rm =>
    .arm (ArmParts.toWord
      { cond := condBits c, b27 := false, b26 := false, b25 := false, b24 := true, b23 := false, b22 := true, b21 := true, b20 := true
        f16 := rn, f12 := rd, f8 := amt.extractLsb' 1 4, b7 := amt.getLsbD 0, b6 := shiftBit1 k, b5 := shiftBit0 k, b4 := false, f0 := rm })
  | .orrImmShift c sf rn rd amt k rm =>
    .arm (ArmParts.toWord
      { cond := condBits c, b27 := false, b26 := false, b25 := false, b24 := true, b23 := true, b22 := false, b21 := false, b20 := sf
        f16 := rn, f12 := rd, f8 := amt.extractLsb' 1 4, b7 := amt.getLsbD 0, b6 := shiftBit1 k, b5 := shiftBit0 k, b4 := false, f0 := rm })
  | .movImmShift c sf rn rd amt k rm =>
    .arm (ArmParts.toWord
      { cond := condBits c, b27 := false, b26 := false, b25 := false, b24 := true, b23 := true, b22 := false, b21 := true, b20 := sf
        f16 := rn, f12 := rd, f8 := amt.extractLsb' 1 4, b7 := amt.getLsbD 0, b6 := shiftBit1 k, b5 := shiftBit0 k, b4 := false, f0 := rm })
  | .bicImmShift c sf rn rd amt k rm =>
    .arm (ArmParts.toWord
      { cond := condBits c, b27 := false, b26 := false, b25 := false, b24 := true, b23 := true, b22 := true, b21 := false, b20 := sf
        f16 := rn, f12 := rd, f8 := amt.extractLsb' 1 4, b7 := amt.getLsbD 0, b6 := shiftBit1 k, b5 := shiftBit0 k, b4 := false, f0 := rm })
  | .mvnImmShift c sf rn rd amt k rm =>
    .arm (ArmParts.toWord
      { cond := condBits c, b27 := false, b26 := false, b25 := false, b24 := true, b23 := true, b22 := true, b21 := true, b20 := sf
        f16 := rn, f12 := rd, f8 := amt.extractLsb' 1 4, b7 := amt.getLsbD 0, b6 := shiftBit1 k, b5 := shiftBit0 k, b4 := false, f0 := rm })
  | .andRegShift c sf rn rd rs k rm =>
    .arm (ArmParts.toWord
      { cond := condBits c, b27 := false, b26 := false, b25 := false, b24 := false, b23 := false, b22 := false, b21 := false, b20 := sf
        f16 := rn, f12 := rd, f8 := rs, b7 := false, b6 := shiftBit1 k, b5 := shiftBit0 k, b4 := true, f0 := rm })
  | .eorRegShift c sf rn rd rs k rm =>
    .arm (ArmParts.toWord
      { cond := condBits c, b27 := false, b26 := false, b25 := false, b24 := false, b23 := false, b22 := false, b21 := true, b20 := sf
        f16 := rn, f12 := rd, f8 := rs, b7 := false, b6 := shiftBit1 k, b5 := shiftBit0 k, b4 := true, f0 := rm })
  | .subRegShift c sf rn rd rs k rm =>
    .arm (ArmParts.toWord
      { cond := condBits c, b27 := false, b26 := false, b25 := false, b24 := false, b23 := false, b22 := true, b21 := false, b20 := sf
        f16 := rn, f12 := rd, f8 := rs, b7 := false, b6 := shiftBit1 k, b5 := shiftBit0 k, b4 := true, f0 := rm })
  | .rsbRegShift c sf rn rd rs k rm =>
    .arm (ArmParts.toWord
      { cond := condBits c, b27 := false, b26 := false, b25 := false, b24 := false, b23 := false, b22 := true, b21 := true, b20 := sf
        f16 := rn, f12 := rd, f8 := rs, b7 := false, b6 := shiftBit1 k, b5 := shiftBit0 k, b4 := true, f0 := rm })
  | .addRegShift c sf rn rd rs k rm =>
    .arm (ArmParts.toWord
      { cond := condBits c, b27 := false, b26 := false, b25 := false, b24 := false, b23 := true, b22 := false, b21 := false, b20 := sf
        f16 := rn, f12 := rd, f8 := rs, b7 := false, b6 := shiftBit1 k, b5 := shiftBit0 k, b4 := true, f0 := rm })
  | .adcRegShift c sf rn rd rs k rm =>
    .arm (ArmParts.toWord
      { cond := condBits c, b27 := false, b26 := false, b25 := false, b24 := false, b23 := true, b22 := false, b21 := true, b20 := sf
        f16 := rn, f12 := rd, f8 := rs, b7 := false, b6 := shiftBit1 k, b5 := shiftBit0 k, b4 := true, f0 := rm })
  | .sbcRegShift c sf rn rd rs k rm =>
    .arm (ArmParts.toWord
      { cond := condBits c, b27 := false, b26 := false, b25 := false, b24 := false, b23 := true, b22 := true, b21 := false, b20 := sf
        f16 := rn, f12 := rd, f8 := rs, b7 := false, b6 := shiftBit1 k, b5 := shiftBit0 k, b4 := true, f0 := rm })
  | .rscRegShift c sf rn rd rs k rm =>
    .arm (ArmParts.toWord
      { cond := condBits c, b27 := false, b26 := false, b25 := false, b24 := false, b23 := true, b22 := true, b21 := true, b20 := sf
        f16 := rn, f12 := rd, f8 := rs, b7 := false, b6 := shiftBit1 k, b5 := shiftBit0 k, b4 := true, f0 := rm })
  | .undefMisc01000010 c f16 f12 f8 b6 b5 f0 =>
    .arm (ArmParts.toWord
      { cond := condBits c, b27 := false, b26 := false, b25 := false, b24 := true, b23 := false, b22 := false, b21 := false, b20 := false
        f16 := f16, f12 := f12, f8 := f8, b7 := false, b6 := b6, b5 := b5, b4 := true, f0 := f0 })
  | .tstRegShift c rn rd rs k rm =>
    .arm (ArmParts.toWord
      { cond := condBits c, b27 := false, b26 := false, b25 := false, b24 := true, b23 := false, b22 := false, b21 := false, b20 := true
        f16 := rn, f12 := rd, f8 := rs, b7 := false, b6 := shiftBit1 k, b5 := shiftBit0 k, b4 := true, f0 := rm })
  | .bx c sbo rm =>
    .arm (ArmParts.toWord
      { cond := condBits c, b27 := false, b26 := false, b25 := false, b24 := true, b23 := false, b22 := false, b21 := true, b20 := false
        f16 := sbo.extractLsb' 8 4, f12 := sbo.extractLsb' 4 4, f8 := sbo.extractLsb' 0 4, b7 := false, b6 := false, b5 := false, b4 := true, f0 := rm })
  | .undefMisc01200030 c f16 f12 f8 f0 =>
    .arm (ArmParts.toWord
      { cond := condBits c, b27 := false, b26 := false, b25 := false, b24 := true, b23 := false, b22 := false, b21 := true, b20 := false
        f16 := f16, f12 := f12, f8 := f8, b7 := false, b6 := false, b5 := true, b4 := true, f0 := f0 })
  | .undefMisc01200050 c f16 f12 f8 b5 f0 =>
    .arm (ArmParts.toWord
      { cond := condBits c, b27 := false, b26 := false, b25 := false, b24 := true, b23 := false, b22 := false, b21 := true, b20 := false
        f16 := f16, f12 := f12, f8 := f8, b7 := false, b6 := true, b5 := b5, b4 := true, f0 := f0 })
  | .teqRegShift c rn rd rs k rm =>
    .arm (ArmParts.toWord
      { cond := condBits c, b27 := false, b26 := false, b25 := false, b24 := true, b23 := false, b22 := false, b21 := true, b20 := true
        f16 := rn, f12 := rd, f8 := rs, b7 := false, b6 := shiftBit1 k, b5 := shiftBit0 k, b4 := true, f0 := rm })
  | .undefMisc01400010 c b21 f16 f12 f8 b6 b5 f0 =>
    .arm (ArmParts.toWord
      { cond := condBits c, b27 := false, b26 := false, b25 := false, b24 := true, b23 := false, b22 := true, b21 := b21, b20 := false
        f16 := f16, f12 := f12, f8 := f8, b7 := false, b6 := b6, b5 := b5, b4 := true, f0 := f0 })
  | .cmpRegShift c rn rd rs k rm =>
    .arm (ArmParts.toWord
      { cond := condBits c, b27 := false, b26 := false, b25 := false, b24 := true, b23 := false, b22 := true, b21 := false, b20 := true
        f16 := rn, f12 := rd, f8 := rs, b7 := false, b6 := shiftBit1 k, b5 := shiftBit0 k, b4 := true, f0 := rm })
  | .cmnRegShift c rn rd rs k rm =>
    .arm (ArmParts.toWord
      { cond := condBits c, b27 := false, b26 := false, b25 := false, b24 := true, b23 := false, b22 := true, b21 := true, b20 := true
        f16 := rn, f12 := rd, f8 := rs, b7 := false, b6 := shiftBit1 k, b5 := shiftBit0 k, b4 := true, f0 := rm })
  | .orrRegShift c sf rn rd rs k rm =>
    .arm (ArmParts.toWord
      { cond := condBits c, b27 := false, b26 := false, b25 := false, b24 := true, b23 := true, b22 := false, b21 := false, b20 := sf
        f16 := rn, f12 := rd, f8 := rs, b7 := false, b6 := shiftBit1 k, b5 := shiftBit0 k, b4 := true, f0 := rm })
  | .movRegShift c sf rn rd rs k rm =>
    .arm (ArmParts.toWord
      { cond := condBits c, b27 := false, b26 := false, b25 := false, b24 := true, b23 := true, b22 := false, b21 := true, b20 := sf
        f16 := rn, f12 := rd, f8 := rs, b7 := false, b6 := shiftBit1 k, b5 := shiftBit0 k, b4 := true, f0 := rm })
  | .bicRegShift c sf rn rd rs k rm =>
    .arm (ArmParts.toWord
      { cond := condBits c, b27 := false, b26 := false, b25 := false, b24 := true, b23 := true, b22 := true, b21 := false, b20 := sf
        f16 := rn, f12 := rd, f8 := rs, b7 := false, b6 := shiftBit1 k, b5 := shiftBit0 k, b4 := true, f0 := rm })
  | .mvnRegShift c sf rn rd rs k rm =>
    .arm (ArmParts.toWord
      { cond := condBits c, b27 := false, b26 := false, b25 := false, b24 := true, b23 := true, b22 := true, b21 := true, b20 := sf
        f16 := rn, f12 := rd, f8 := rs, b7 := false, b6 := shiftBit1 k, b5 := shiftBit0 k, b4 := true, f0 := rm })
  | .mul c sf rd rn rs rm =>
    .arm (ArmParts.toWord
      { cond := condBits c, b27 := false, b26 := false, b25 := false, b24 := false, b23 := false, b22 := false, b21 := false, b20 := sf
        f16 := rd, f12 := rn, f8 := rs, b7 := true, b6 := false, b5 := false, b4 := true, f0 := rm })
  | .mla c sf rd rn rs rm =>
    .arm (ArmParts.toWord
      { cond := condBits c, b27 := false, b26 := false, b25 := false, b24 := false, b23 := false, b22 := false, b21 := true, b20 := sf
        f16 := rd, f12 := rn, f8 := rs, b7 := true, b6 := false, b5 := false, b4 := true, f0 := rm })
  | .undefMulSwap00400090 c b21 b20 f16 f12 f8 f0 =>
    .arm (ArmParts.toWord
      { cond := condBits c, b27 := false, b26 := false, b25 := false, b24 := false, b23 := false, b22 := true, b21 := b21, b20 := b20
        f16 := f16, f12 := f12, f8 := f8, b7 := true, b6 := false, b5 := false, b4 := true, f0 := f0 })
  | .umull c sf rdHi rdLo rs rm =>
    .arm (ArmParts.toWord
      { cond := condBits c, b27 := false, b26 := false, b25 := false, b24 := false, b23 := true, b22 := false, b21 := false, b20 := sf
        f16 := rdHi, f12 := rdLo, f8 := rs, b7 := true, b6 := false, b5 := false, b4 := true, f0 := rm })
  | .umlal c sf rdHi rdLo rs rm =>
    .arm (ArmParts.toWord
      { cond := condBits c, b27 := false, b26 := false, b25 := false, b24 := false, b23 := true, b22 := false, b21 := true, b20 := sf
        f16 := rdHi, f12 := rdLo, f8 := rs, b7 := true, b6 := false, b5 := false, b4 := true, f0 := rm })
  | .smull c sf rdHi rdLo rs rm =>
    .arm (ArmParts.toWord
      { cond := condBits c, b27 := false, b26 := false, b25 := false, b24 := false, b23 := true, b22 := true, b21 := false, b20 := sf
        f16 := rdHi, f12 := rdLo, f8 := rs, b7 := true, b6 := false, b5 := false, b4 := true, f0 := rm })
  | .smlal c sf rdHi rdLo rs rm =>
    .arm (ArmParts.toWord
      { cond := condBits c, b27 := false, b26 := false, b25 := false, b24 := false, b23 := true, b22 := true, b21 := true, b20 := sf
        f16 := rdHi, f12 := rdLo, f8 := rs, b7 := true, b6 := false, b5 := false, b4 := true, f0 := rm })
  | .swp c rn rd sbz rm =>
    .arm (ArmParts.toWord
      { cond := condBits c, b27 := false, b26 := false, b25 := false, b24 := true, b23 := false, b22 := false, b21 := false, b20 := false
        f16 := rn, f12 := rd, f8 := sbz, b7 := true, b6 := false, b5 := false, b4 := true, f0 := rm })
  | .swpb c rn rd sbz rm =>
    .arm (ArmParts.toWord
      { cond := condBits c, b27 := false, b26 := false, b25 := false, b24 := true, b23 := false, b22 := true, b21 := false, b20 := false
        f16 := rn, f12 := rd, f8 := sbz, b7 := true, b6 := false, b5 := false, b4 := true, f0 := rm })
  | .undefMulSwap01100090 c b22 f16 f12 f8 f0 =>
    .arm (ArmParts.toWord
      { cond := condBits c, b27 := false, b26 := false, b25 := false, b24 := true, b23 := false, b22 := b22, b21 := false, b20 := true
        f16 := f16, f12 := f12, f8 := f8, b7 := true, b6 := false, b5 := false, b4 := true, f0 := f0 })
  | .undefMulSwap01200090 c b22 b20 f16 f12 f8 f0 =>
    .arm (ArmParts.toWord
      { cond := condBits c, b27 := false, b26 := false, b25 := false, b24 := true, b23 := false, b22 := b22, b21 := true, b20 := b20
        f16 := f16, f12 := f12, f8 := f8, b7 := true, b6 := false, b5 := false, b4 := true, f0 := f0 })
  | .undefMulSwap01800090 c b22 b21 b20 f16 f12 f8 f0 =>
    .arm (ArmParts.toWord
      { cond := condBits c, b27 := false, b26 := false, b25 := false, b24 := true, b23 := true, b22 := b22, b21 := b21, b20 := b20
        f16 := f16, f12 := f12, f8 := f8, b7 := true, b6 := false, b5 := false, b4 := true, f0 := f0 })
  | .strhReg c p u w rn rd sbz rm =>
    .arm (ArmParts.toWord
      { cond := condBits c, b27 := false, b26 := false, b25 := false, b24 := p, b23 := u, b22 := false, b21 := w, b20 := false
        f16 := rn, f12 := rd, f8 := sbz, b7 := true, b6 := false, b5 := true, b4 := true, f0 := rm })
  | .ldrhReg c p u w rn rd sbz rm =>
    .arm (ArmParts.toWord
      { cond := condBits c, b27 := false, b26 := false, b25 := false, b24 := p, b23 := u, b22 := false, b21 := w, b20 := true
        f16 := rn, f12 := rd, f8 := sbz, b7 := true, b6 := false, b5 := true, b4 := true, f0 := rm })
  | .strhImm c p u w rn rd immHi immLo =>
    .arm (ArmParts.toWord
      { cond := condBits c, b27 := false, b26 := false, b25 := false, b24 := p, b23 := u, b22 := true, b21 := w, b20 := false
        f16 := rn, f12 := rd, f8 := immHi, b7 := true, b6 := false, b5 := true, b4 := true, f0 := immLo })
  | .ldrhImm c p u w rn rd immHi immLo =>
    .arm (ArmParts.toWord
      { cond := condBits c, b27 := false, b26 := false, b25 := false, b24 := p, b23 := u, b22 := true, b21 := w, b20 := true
        f16 := rn, f12 := rd, f8 := immHi, b7 := true, b6 := false, b5 := true, b4 := true, f0 := immLo })
  | .undefHalfStore c b24 b23 b22 b21 f16 f12 f8 b5 f0 =>
    .arm (ArmParts.toWord
      { cond := condBits c, b27 := false, b26 := false, b25 := false, b24 := b24, b23 := b23, b22 := b22, b21 := b21, b20 := false
        f16 := f16, f12 := f12, f8 := f8, b7 := true, b6 := true, b5 := b5, b4 := true, f0 := f0 })
  | .ldrsbReg c p u w rn rd sbz rm =>
    .arm (ArmParts.toWord
      { cond := condBits c, b27 := false, b26 := false, b25 := false, b24 := p, b23 := u, b22 := false, b21 := w, b20 := true
        f16 := rn, f12 := rd, f8 := sbz, b7 := true, b6 := true, b5 := false, b4 := true, f0 := rm })
  | .ldrshReg c p u w rn rd sbz rm =>
    .arm (ArmParts.toWord
      { cond := condBits c, b27 := false, b26 := false, b25 := false, b24 := p, b23 := u, b22 := false, b21 := w, b20 := true
        f16 := rn, f12 := rd, f8 := sbz, b7 := true, b6 := true, b5 := true, b4 := true, f0 := rm })
  | .ldrsbImm c p u w rn rd immHi immLo =>
    .arm (ArmParts.toWord
      { cond := condBits c, b27 := false, b26 := false, b25 := false, b24 := p, b23 := u, b22 := true, b21 := w, b20 := true
        f16 := rn, f12 := rd, f8 := immHi, b7 := true, b6 := true, b5 := false, b4 := true, f0 := immLo })
  | .ldrshImm c p u w rn rd immHi immLo =>
    .arm (ArmParts.toWord
      { cond := condBits c, b27 := false, b26 := false, b25 := false, b24 := p, b23 := u, b22 := true, b21 := w, b20 := true
        f16 := rn, f12 := rd, f8 := immHi, b7 := true, b6 := true, b5 := true, b4 := true, f0 := immLo })
  | .andImm c sf rn rd rot imm =>
    .arm (ArmParts.toWord
      { cond := condBits c, b27 := false, b26 := false, b25 := true, b24 := false, b23 := false, b22 := false, b21 := false, b20 := sf
        f16 := rn, f12 := rd, f8 := rot, b7 := imm.getLsbD 7, b6 := imm.getLsbD 6, b5 := imm.getLsbD 5, b4 := imm.getLsbD 4, f0 := imm.extractLsb' 0 4 })
  | .eorImm c sf rn rd rot imm =>
    .arm (ArmParts.toWord
      { cond := condBits c, b27 := false, b26 := false, b25 := true, b24 := false, b23 := false, b22 := false, b21 := true, b20 := sf
        f16 := rn, f12 := rd, f8 := rot, b7 := imm.getLsbD 7, b6 := imm.getLsbD 6, b5 := imm.getLsbD 5, b4 := imm.getLsbD 4, f0 := imm.extractLsb' 0 4 })
  | .subImm c sf rn rd rot imm =>
    .arm (ArmParts.toWord
      { cond := condBits c, b27 := false, b26 := false, b25 := true, b24 := false, b23 := false, b22 := true, b21 := false, b20 := sf
        f16 := rn, f12 := rd, f8 := rot, b7 := imm.getLsbD 7, b6 := imm.getLsbD 6, b5 := imm.getLsbD 5, b4 := imm.getLsbD 4, f0 := imm.extractLsb' 0 4 })
  | .rsbImm c sf rn rd rot imm =>
    .arm (ArmParts.toWord
      { cond := condBits c, b27 := false, b26 := false, b25 := true, b24 := false, b23 := false, b22 := true, b21 := true, b20 := sf
        f16 := rn, f12 := rd, f8 := rot, b7 := imm.getLsbD 7, b6 := imm.getLsbD 6, b5 := imm.getLsbD 5, b4 := imm.getLsbD 4, f0 := imm.extractLsb' 0 4 })
  | .addImm c sf rn rd rot imm =>
    .arm (ArmParts.toWord
      { cond := condBits c, b27 := false, b26 := false, b25 := true, b24 := false, b23 := true, b22 := false, b21 := false, b20 := sf
        f16 := rn, f12 := rd, f8 := rot, b7 := imm.getLsbD 7, b6 := imm.getLsbD 6, b5 := imm.getLsbD 5, b4 := imm.getLsbD 4, f0 := imm.extractLsb' 0 4 })
  | .adcImm c sf rn rd rot imm =>
    .arm (ArmParts.toWord
      { cond := condBits c, b27 := false, b26 := false, b25 := true, b24 := false, b23 := true, b22 := false, b21 := true, b20 := sf
        f16 := rn, f12 := rd, f8 := rot, b7 := imm.getLsbD 7, b6 := imm.getLsbD 6, b5 := imm.getLsbD 5, b4 := imm.getLsbD 4, f0 := imm.extractLsb' 0 4 })
  | .sbcImm c sf rn rd rot imm =>
    .arm (ArmParts.toWord
      { cond := condBits c, b27 := false, b26 := false, b25 := true, b24 := false, b23 := true, b22 := true, b21 := false, b20 := sf
        f16 := rn, f12 := rd, f8 := rot, b7 := imm.getLsbD 7, b6 := imm.getLsbD 6, b5 := imm.getLsbD 5, b4 := imm.getLsbD 4, f0 := imm.extractLsb' 0 4 })
  | .rscImm c sf rn rd rot imm =>
    .arm (ArmParts.toWord
      { cond := condBits c, b27 := false, b26 := false, b25 := true, b24 := false, b23 := true, b22 := true, b21 := true, b20 := sf
        f16 := rn, f12 := rd, f8 := rot, b7 := imm.getLsbD 7, b6 := imm.getLsbD 6, b5 := imm.getLsbD 5, b4 := imm.getLsbD 4, f0 := imm.extractLsb' 0 4 })
  | .undefTstImm c b22 f16 f12 f8 b7 b6 b5 b4 f0 =>
    .arm (ArmParts.toWord
      { cond := condBits c, b27 := false, b26 := false, b25 := true, b24 := true, b23 := false, b22 := b22, b21 := false, b20 := false
        f16 := f16, f12 := f12, f8 := f8, b7 := b7, b6 := b6, b5 := b5, b4 := b4, f0 := f0 })
  | .tstImm c rn rd rot imm =>
    .arm (ArmParts.toWord
      { cond := condBits c, b27 := false, b26 := false, b25 := true, b24 := true, b23 := false, b22 := false, b21 := false, b20 := true
        f16 := rn, f12 := rd, f8 := rot, b7 := imm.getLsbD 7, b6 := imm.getLsbD 6, b5 := imm.getLsbD 5, b4 := imm.getLsbD 4, f0 := imm.extractLsb' 0 4 })
  | .cmpImm c rn rd rot imm =>
    .arm (ArmParts.toWord
      { cond := condBits c, b27 := false, b26 := false, b25 := true, b24 := true, b23 := false, b22 := true, b21 := false, b20 := true
        f16 := rn, f12 := rd, f8 := rot, b7 := imm.getLsbD 7, b6 := imm.getLsbD 6, b5 := imm.getLsbD 5, b4 := imm.getLsbD 4, f0 := imm.extractLsb' 0 4 })
  | .msrImm c r fm sbo rot imm =>
    .arm (ArmParts.toWord
      { cond := condBits c, b27 := false, b26 := false, b25 := true, b24 := true, b23 := false, b22 := r, b21 := true, b20 := false
        f16 := fm, f12 := sbo, f8 := rot, b7 := imm.getLsbD 7, b6 := imm.getLsbD 6, b5 := imm.getLsbD 5, b4 := imm.getLsbD 4, f0 := imm.extractLsb' 0 4 })
  | .teqImm c rn rd rot imm =>
    .arm (ArmParts.toWord
      { cond := condBits c, b27 := false, b26 := false, b25 := true, b24 := true, b23 := false, b22 := false, b21 := true, b20 := true
        f16 := rn, f12 := rd, f8 := rot, b7 := imm.getLsbD 7, b6 := imm.getLsbD 6, b5 := imm.getLsbD 5, b4 := imm.getLsbD 4, f0 := imm.extractLsb' 0 4 })
  | .cmnImm c rn rd rot imm =>
    .arm (ArmParts.toWord
      { cond := condBits c, b27 := false, b26 := false, b25 := true, b24 := true, b23 := false, b22 := true, b21 := true, b20 := true
        f16 := rn, f12 := rd, f8 := rot, b7 := imm.getLsbD 7, b6 := imm.getLsbD 6, b5 := imm.getLsbD 5, b4 := imm.getLsbD 4, f0 := imm.extractLsb' 0 4 })
  | .orrImm c sf rn rd rot imm =>
    .arm (ArmParts.toWord
      { cond := condBits c, b27 := false, b26 := false, b25 := true, b24 := true, b23 := true, b22 := false, b21 := false, b20 := sf
        f16 := rn, f12 := rd, f8 := rot, b7 := imm.getLsbD 7, b6 := imm.getLsbD 6, b5 := imm.getLsbD 5, b4 := imm.getLsbD 4, f0 := imm.extractLsb' 0 4 })
  | .movImm c sf rn rd rot imm =>
    .arm (ArmParts.toWord
      { cond := condBits c, b27 := false, b26 := false, b25 := true, b24 := true, b23 := true, b22 := false, b21 := true, b20 := sf
        f16 := rn, f12 := rd, f8 := rot, b7 := imm.getLsbD 7, b6 := imm.getLsbD 6, b5 := imm.getLsbD 5, b4 := imm.getLsbD 4, f0 := imm.extractLsb' 0 4 })
  | .bicImm c sf rn rd rot imm =>
    .arm (ArmParts.toWord
      { cond := condBits c, b27 := false, b26 := false, b25 := true, b24 := true, b23 := true, b22 := true, b21 := false, b20 := sf
        f16 := rn, f12 := rd, f8 := rot, b7 := imm.getLsbD 7, b6 := imm.getLsbD 6, b5 := imm.getLsbD 5, b4 := imm.getLsbD 4, f0 := imm.extractLsb' 0 4 })
  | .mvnImm c sf rn rd rot imm =>
    .arm (ArmParts.toWord
      { cond := condBits c, b27 := false, b26 := false, b25 := true, b24 := true, b23 := true, b22 := true, b21 := true, b20 := sf
        f16 := rn, f12 := rd, f8 := rot, b7 := imm.getLsbD 7, b6 := imm.getLsbD 6, b5 := imm.getLsbD 5, b4 := imm.getLsbD 4, f0 := imm.extractLsb' 0 4 })
  | .strImmPost c u rn rd off =>
    .arm (ArmParts.toWord
      { cond := condBits c, b27 := false, b26 := true, b25 := false, b24 := false, b23 := u, b22 := false, b21 := false, b20 := false
        f16 := rn, f12 := rd, f8 := off.extractLsb' 8 4, b7 := off.getLsbD 7, b6 := off.getLsbD 6, b5 := off.getLsbD 5, b4 := off.getLsbD 4, f0 := off.extractLsb' 0 4 })
  | .ldrImmPost c u rn rd off =>
    .arm (ArmParts.toWord
      { cond := condBits c, b27 := false, b26 := true, b25 := false, b24 := false, b23 := u, b22 := false, b21 := false, b20 := true
        f16 := rn, f12 := rd, f8 := off.extractLsb' 8 4, b7 := off.getLsbD 7, b6 := off.getLsbD 6, b5 := off.getLsbD 5, b4 := off.getLsbD 4, f0 := off.extractLsb' 0 4 })
  | .strtImm c u rn rd off =>
    .arm (ArmParts.toWord
      { cond := condBits c, b27 := false, b26 := true, b25 := false, b24 := false, b23 := u, b22 := false, b21 := true, b20 := false
        f16 := rn, f12 := rd, f8 := off.extractLsb' 8 4, b7 := off.getLsbD 7, b6 := off.getLsbD 6, b5 := off.getLsbD 5, b4 := off.getLsbD 4, f0 := off.extractLsb' 0 4 })
  | .ldrtImm c u rn rd off =>
    .arm (ArmParts.toWord
      { cond := condBits c, b27 := false, b26 := true, b25 := false, b24 := false, b23 := u, b22 := false, b21 := true, b20 := true
        f16 := rn, f12 := rd, f8 := off.extractLsb' 8 4, b7 := off.getLsbD 7, b6 := off.getLsbD 6, b5 := off.getLsbD 5, b4 := off.getLsbD 4, f0 := off.extractLsb' 0 4 })
  | .strbImmPost c u rn rd off =>
    .arm (ArmParts.toWord
      { cond := condBits c, b27 := false, b26 := true, b25 := false, b24 := false, b23 := u, b22 := true, b21 := false, b20 := false
        f16 := rn, f12 := rd, f8 := off.extractLsb' 8 4, b7 := off.getLsbD 7, b6 := off.getLsbD 6, b5 := off.getLsbD 5, b4 := off.getLsbD 4, f0 := off.extractLsb' 0 4 })
  | .ldrbImmPost c u rn rd off =>
    .arm (ArmParts.toWord
      { cond := condBits c, b27 := false, b26 := true, b25 := false, b24 := false, b23 := u, b22 := true, b21 := false, b20 := true
        f16 := rn, f12 := rd, f8 := off.extractLsb' 8 4, b7 := off.getLsbD 7, b6 := off.getLsbD 6, b5 := off.getLsbD 5, b4 := off.getLsbD 4, f0 := off.extractLsb' 0 4 })
  | .strbtImm c u rn rd off =>
    .arm (ArmParts.toWord
      { cond := condBits c, b27 := false, b26 := true, b25 := false, b24 := false, b23 := u, b22 := true, b21 := true, b20 := false
        f16 := rn, f12 := rd, f8 := off.extractLsb' 8 4, b7 := off.getLsbD 7, b6 := off.getLsbD 6, b5 := off.getLsbD 5, b4 := off.getLsbD 4, f0 := off.extractLsb' 0 4 })
  | .ldrbtImm c u rn rd off =>
    .arm (ArmParts.toWord
      { cond := condBits c, b27 := false, b26 := true, b25 := false, b24 := false, b23 := u, b22 := true, b21 := true, b20 := true
        f16 := rn, f12 := rd, f8 := off.extractLsb' 8 4, b7 := off.getLsbD 7, b6 := off.getLsbD 6, b5 := off.getLsbD 5, b4 := off.getLsbD 4, f0 := off.extractLsb' 0 4 })
  | .strImmPre c u w rn rd off =>
    .arm (ArmParts.toWord
      { cond := condBits c, b27 := false, b26 := true, b25 := false, b24 := true, b23 := u, b22 := false, b21 := w, b20 := false
        f16 := rn, f12 := rd, f8 := off.extractLsb' 8 4, b7 := off.getLsbD 7, b6 := off.getLsbD 6, b5 := off.getLsbD 5, b4 := off.getLsbD 4, f0 := off.extractLsb' 0 4 })
  | .ldrImmPre c u w rn rd off =>
    .arm (ArmParts.toWord
      { cond := condBits c, b27 := false, b26 := true, b25 := false, b24 := true, b23 := u, b22 := false, b21 := w, b20 := true
        f16 := rn, f12 := rd, f8 := off.extractLsb' 8 4, b7 := off.getLsbD 7, b6 := off.getLsbD 6, b5 := off.getLsbD 5, b4 := off.getLsbD 4, f0 := off.extractLsb' 0 4 })
  | .strbImmPre c u w rn rd off =>
    .arm (ArmParts.toWord
      { cond := condBits c, b27 := false, b26 := true, b25 := false, b24 := true, b23 := u, b22 := true, b21 := w, b20 := false
        f16 := rn, f12 := rd, f8 := off.extractLsb' 8 4, b7 := off.getLsbD 7, b6 := off.getLsbD 6, b5 := off.getLsbD 5, b4 := off.getLsbD 4, f0 := off.extractLsb' 0 4 })
  | .ldrbImmPre c u w rn rd off =>
    .arm (ArmParts.toWord
      { cond := condBits c, b27 := false, b26 := true, b25 := false, b24 := true, b23 := u, b22 := true, b21 := w, b20 := true
        f16 := rn, f12 := rd, f8 := off.extractLsb' 8 4, b7 := off.getLsbD 7, b6 := off.getLsbD 6, b5 := off.getLsbD 5, b4 := off.getLsbD 4, f0 := off.extractLsb' 0 4 })
  | .strRegPost c u rn rd amt k rm =>
    .arm (ArmParts.toWord
      { cond := condBits c, b27 := false, b26 := true, b25 := true, b24 := false, b23 := u, b22 := false, b21 := false, b20 := false
        f16 := rn, f12 := rd, f8 := amt.extractLsb' 1 4, b7 := amt.getLsbD 0, b6 := shiftBit1 k, b5 := shiftBit0 k, b4 := false, f0 := rm })
  | .ldrRegPost c u rn rd amt k rm =>
    .arm (ArmParts.toWord
      { cond := condBits c, b27 := false, b26 := true, b25 := true, b24 := false, b23 := u, b22 := false, b21 := false, b20 := true
        f16 := rn, f12 := rd, f8 := amt.extractLsb' 1 4, b7 := amt.getLsbD 0, b6 := shiftBit1 k, b5 := shiftBit0 k, b4 := false, f0 := rm })
  | .strtReg c u rn rd amt k rm =>
    .arm (ArmParts.toWord
      { cond := condBits c, b27 := false, b26 := true, b25 := true, b24 := false, b23 := u, b22 := false, b21 := true, b20 := false
        f16 := rn, f12 := rd, f8 := amt.extractLsb' 1 4, b7 := amt.getLsbD 0, b6 := shiftBit1 k, b5 := shiftBit0 k, b4 := false, f0 := rm })
  | .ldrtReg c u rn rd amt k rm =>
    .arm (ArmParts.toWord
      { cond := condBits c, b27 := false, b26 := true, b25 := true, b24 := false, b23 := u, b22 := false, b21 := true, b20 := true
        f16 := rn, f12 := rd, f8 := amt.extractLsb' 1 4, b7 := amt.getLsbD 0, b6 := shiftBit1 k, b5 := shiftBit0 k, b4 := false, f0 := rm })
  | .strbRegPost c u rn rd amt k rm =>
    .arm (ArmParts.toWord
      { cond := condBits c, b27 := false, b26 := true, b25 := true, b24 := false, b23 := u, b22 := true, b21 := false, b20 := false
        f16 := rn, f12 := rd, f8 := amt.extractLsb' 1 4, b7 := amt.getLsbD 0, b6 := shiftBit1 k, b5 := shiftBit0 k, b4 := false, f0 := rm })
  | .ldrbRegPost c u rn rd amt k rm =>
    .arm (ArmParts.toWord
      { cond := condBits c, b27 := false, b26 := true, b25 := true, b24 := false, b23 := u, b22 := true, b21 := false, b20 := true
        f16 := rn, f12 := rd, f8 := amt.extractLsb' 1 4, b7 := amt.getLsbD 0, b6 := shiftBit1 k, b5 := shiftBit0 k, b4 := false, f0 := rm })
  | .strbtReg c u rn rd amt k rm =>
    .arm (ArmParts.toWord
      { cond := condBits c, b27 := false, b26 := true, b25 := true, b24 := false, b23 := u, b22 := true, b21 := true, b20 := false
        f16 := rn, f12 := rd, f8 := amt.extractLsb' 1 4, b7 := amt.getLsbD 0, b6 := shiftBit1 k, b5 := shiftBit0 k, b4 := false, f0 := rm })
  | .ldrbtReg c u rn rd amt k rm =>
    .arm (ArmParts.toWord
      { cond := condBits c, b27 := false, b26 := true, b25 := true, b24 := false, b23 := u, b22 := true, b21 := true, b20 := true
        f16 := rn, f12 := rd, f8 := amt.extractLsb' 1 4, b7 := amt.getLsbD 0, b6 := shiftBit1 k, b5 := shiftBit0 k, b4 := false, f0 := rm })
  | .strRegPre c u w rn rd amt k rm =>
    .arm (ArmParts.toWord
      { cond := condBits c, b27 := false, b26 := true, b25 := true, b24 := true, b23 := u, b22 := false, b21 := w, b20 := false
        f16 := rn, f12 := rd, f8 := amt.extractLsb' 1 4, b7 := amt.getLsbD 0, b6 := shiftBit1 k, b5 := shiftBit0 k, b4 := false, f0 := rm })
  | .ldrRegPre c u w rn rd amt k rm =>
    .arm (ArmParts.toWord
      { cond := condBits c, b27 := false, b26 := true, b25 := true, b24 := true, b23 := u, b22 := false, b21 := w, b20 := true
        f16 := rn, f12 := rd, f8 := amt.extractLsb' 1 4, b7 := amt.getLsbD 0, b6 := shiftBit1 k, b5 := shiftBit0 k, b4 := false, f0 := rm })
  | .strbRegPre c u w rn rd amt k rm =>
    .arm (ArmParts.toWord
      { cond := condBits c, b27 := false, b26 := true, b25 := true, b24 := true, b23 := u, b22 := true, b21 := w, b20 := false
        f16 := rn, f12 := rd, f8 := amt.extractLsb' 1 4, b7 := amt.getLsbD 0, b6 := shiftBit1 k, b5 := shiftBit0 k, b4 := false, f0 := rm })
  | .ldrbRegPre c u w rn rd amt k rm =>
    .arm (ArmParts.toWord
      { cond := condBits c, b27 := false, b26 := true, b25 := true, b24 := true, b23 := u, b22 := true, b21 := w, b20 := true
        f16 := rn, f12 := rd, f8 := amt.extractLsb' 1 4, b7 := amt.getLsbD 0, b6 := shiftBit1 k, b5 := shiftBit0 k, b4 := false, f0 := rm })
  | .undefArch c b24 b23 b22 b21 b20 f16 f12 f8 b7 b6 b5 f0 =>
    .arm (ArmParts.toWord
      { cond := condBits c, b27 := false, b26 := true, b25 := true, b24 := b24, b23 := b23, b22 := b22, b21 := b21, b20 := b20
        f16 := f16, f12 := f12, f8 := f8, b7 := b7, b6 := b6, b5 := b5, b4 := true, f0 := f0 })
  | .stm c p u sf w rn list =>
    .arm (ArmParts.toWord
      { cond := condBits c, b27 := true, b26 := false, b25 := false, b24 := p, b23 := u, b22 := sf, b21 := w, b20 := false
        f16 := rn, f12 := list.extractLsb' 12 4, f8 := list.extractLsb' 8 4, b7 := list.getLsbD 7, b6 := list.getLsbD 6, b5 := list.getLsbD 5, b4 := list.getLsbD 4, f0 := list.extractLsb' 0 4 })
  | .ldm c p u sf w rn list =>
    .arm (ArmParts.toWord
      { cond := condBits c, b27 := true, b26 := false, b25 := false, b24 := p, b23 := u, b22 := sf, b21 := w, b20 := true
        f16 := rn, f12 := list.extractLsb' 12 4, f8 := list.extractLsb' 8 4, b7 := list.getLsbD 7, b6 := list.getLsbD 6, b5 := list.getLsbD 5, b4 := list.getLsbD 4, f0 := list.extractLsb' 0 4 })
  | .b c off =>
    .arm (ArmParts.toWord
      { cond := condBits c, b27 := true, b26 := false, b25 := true, b24 := false, b23 := off.getLsbD 23, b22 := off.getLsbD 22, b21 := off.getLsbD 21, b20 := off.getLsbD 20
        f16 := off.extractLsb' 16 4, f12 := off.extractLsb' 12 4, f8 := off.extractLsb' 8 4, b7 := off.getLsbD 7, b6 := off.getLsbD 6, b5 := off.getLsbD 5, b4 := off.getLsbD 4, f0 := off.extractLsb' 0 4 })
  | .bl c off =>
    .arm (ArmParts.toWord
      { cond := condBits c, b27 := true, b26 := false, b25 := true, b24 := true, b23 := off.getLsbD 23, b22 := off.getLsbD 22, b21 := off.getLsbD 21, b20 := off.getLsbD 20
        f16 := off.extractLsb' 16 4, f12 := off.extractLsb' 12 4, f8 := off.extractLsb' 8 4, b7 := off.getLsbD 7, b6 := off.getLsbD 6, b5 := off.getLsbD 5, b4 := off.getLsbD 4, f0 := off.extractLsb' 0 4 })
  | .stc c p u n w rn crd cp off =>
    .arm (ArmParts.toWord
      { cond := condBits c, b27 := true, b26 := true, b25 := false, b24 := p, b23 := u, b22 := n, b21 := w, b20 := false
        f16 := rn, f12 := crd, f8 := cp, b7 := off.getLsbD 7, b6 := off.getLsbD 6, b5 := off.getLsbD 5, b4 := off.getLsbD 4, f0 := off.extractLsb' 0 4 })
  | .ldc c p u n w rn crd cp off =>
    .arm (ArmParts.toWord
      { cond := condBits c, b27 := true, b26 := true, b25 := false, b24 := p, b23 := u, b22 := n, b21 := w, b20 := true
        f16 := rn, f12 := crd, f8 := cp, b7 := off.getLsbD 7, b6 := off.getLsbD 6, b5 := off.getLsbD 5, b4 := off.getLsbD 4, f0 := off.extractLsb' 0 4 })
  | .cdp c op1 crn crd cp op2 crm =>
    .arm (ArmParts.toWord
      { cond := condBits c, b27 := true, b26 := true, b25 := true, b24 := false, b23 := op1.getLsbD 3, b22 := op1.getLsbD 2, b21 := op1.getLsbD 1, b20 := op1.getLsbD 0
        f16 := crn, f12 := crd, f8 := cp, b7 := op2.getLsbD 2, b6 := op2.getLsbD 1, b5 := op2.getLsbD 0, b4 := false, f0 := crm })
  | .mcr c op1 crn rd cp op2 crm =>
    .arm (ArmParts.toWord
      { cond := condBits c, b27 := true, b26 := true, b25 := true, b24 := false, b23 := op1.getLsbD 2, b22 := op1.getLsbD 1, b21 := op1.getLsbD 0, b20 := false
        f16 := crn, f12 := rd, f8 := cp, b7 := op2.getLsbD 2, b6 := op2.getLsbD 1, b5 := op2.getLsbD 0, b4 := true, f0 := crm })
  | .mrc c op1 crn rd cp op2 crm =>
    .arm (ArmParts.toWord
      { cond := condBits c, b27 := true, b26 := true, b25 := true, b24 := false, b23 := op1.getLsbD 2, b22 := op1.getLsbD 1, b21 := op1.getLsbD 0, b20 := true
        f16 := crn, f12 := rd, f8 := cp, b7 := op2.getLsbD 2, b6 := op2.getLsbD 1, b5 := op2.getLsbD 0, b4 := true, f0 := crm })
  | .swi c cmt =>
    .arm (ArmParts.toWord
      { cond := condBits c, b27 := true, b26 := true, b25 := true, b24 := true, b23 := cmt.getLsbD 23, b22 := cmt.getLsbD 22, b21 := cmt.getLsbD 21, b20 := cmt.getLsbD 20
        f16 := cmt.extractLsb' 16 4, f12 := cmt.extractLsb' 12 4, f8 := cmt.extractLsb' 8 4, b7 := cmt.getLsbD 7, b6 := cmt.getLsbD 6, b5 := cmt.getLsbD 5, b4 := cmt.getLsbD 4, f0 := cmt.extractLsb' 0 4 })
  | .tLslImm off rs rd =>
    .thumb (ThumbParts.toHalf
      { b15 := false, b14 := false, b13 := false, b12 := false, b11 := false
        b10 := off.getLsbD 4, b9 := off.getLsbD 3, b8 := off.getLsbD 2, b7 := off.getLsbD 1, b6 := off.getLsbD 0, f3 := rs, f0 := rd })
  | .tLsrImm off rs rd =>
    .thumb (ThumbParts.toHalf
      { b15 := false, b14 := false, b13 := false, b12 := false, b11 := true
        b10 := off.getLsbD 4, b9 := off.getLsbD 3, b8 := off.getLsbD 2, b7 := off.getLsbD 1, b6 := off.getLsbD 0, f3 := rs, f0 := rd })
  | .tAsrImm off rs rd =>
    .thumb (ThumbParts.toHalf
      { b15 := false, b14 := false, b13 := false, b12 := true, b11 := false
        b10 := off.getLsbD 4, b9 := off.getLsbD 3, b8 := off.getLsbD 2, b7 := off.getLsbD 1, b6 := off.getLsbD 0, f3 := rs, f0 := rd })
  | .tAddReg rn rs rd =>
    .thumb (ThumbParts.toHalf
      { b15 := false, b14 := false, b13 := false, b12 := true, b11 := true
        b10 := false, b9 := false, b8 := rn.getLsbD 2, b7 := rn.getLsbD 1, b6 := rn.getLsbD 0, f3 := rs, f0 := rd })
  | .tSubReg rn rs rd =>
    .thumb (ThumbParts.toHalf
      { b15 := false, b14 := false, b13 := false, b12 := true, b11 := true
        b10 := false, b9 := true, b8 := rn.getLsbD 2, b7 := rn.getLsbD 1, b6 := rn.getLsbD 0, f3 := rs, f0 := rd })
  | .tAddImm3 imm rs rd =>
    .thumb (ThumbParts.toHalf
      { b15 := false, b14 := false, b13 := false, b12 := true, b11 := true
        b10 := true, b9 := false, b8 := imm.getLsbD 2, b7 := imm.getLsbD 1, b6 := imm.getLsbD 0, f3 := rs, f0 := rd })
  | .tSubImm3 imm rs rd =>
    .thumb (ThumbParts.toHalf
      { b15 := false, b14 := false, b13 := false, b12 := true, b11 := true
        b10 := true, b9 := true, b8 := imm.getLsbD 2, b7 := imm.getLsbD 1, b6 := imm.getLsbD 0, f3 := rs, f0 := rd })
  | .tMovImm rd imm =>
    .thumb (ThumbParts.toHalf
      { b15 := false, b14 := false, b13 := true, b12 := false, b11 := false
        b10 := rd.getLsbD 2, b9 := rd.getLsbD 1, b8 := rd.getLsbD 0, b7 := imm.getLsbD 7, b6 := imm.getLsbD 6, f3 := imm.extractLsb' 3 3, f0 := imm.extractLsb' 0 3 })
  | .tCmpImm rd imm =>
    .thumb (ThumbParts.toHalf
      { b15 := false, b14 := false, b13 := true, b12 := false, b11 := true
        b10 := rd.getLsbD 2, b9 := rd.getLsbD 1, b8 := rd.getLsbD 0, b7 := imm.getLsbD 7, b6 := imm.getLsbD 6, f3 := imm.extractLsb' 3 3, f0 := imm.extractLsb' 0 3 })
  | .tAddImm8 rd imm =>
    .thumb (ThumbParts.toHalf
      { b15 := false, b14 := false, b13 := true, b12 := true, b11 := false
        b10 := rd.getLsbD 2, b9 := rd.getLsbD 1, b8 := rd.getLsbD 0, b7 := imm.getLsbD 7, b6 := imm.getLsbD 6, f3 := imm.extractLsb' 3 3, f0 := imm.extractLsb' 0 3 })
  | .tSubImm8 rd imm =>
    .thumb (ThumbParts.toHalf
      { b15 := false, b14 := false, b13 := true, b12 := true, b11 := true
        b10 := rd.getLsbD 2, b9 := rd.getLsbD 1, b8 := rd.getLsbD 0, b7 := imm.getLsbD 7, b6 := imm.getLsbD 6, f3 := imm.extractLsb' 3 3, f0 := imm.extractLsb' 0 3 })
  | .tAnd rs rd =>
    .thumb (ThumbParts.toHalf
      { b15 := false, b14 := true, b13 := false, b12 := false, b11 := false
        b10 := false, b9 := false, b8 := false, b7 := false, b6 := false, f3 := rs, f0 := rd })
  | .tEor rs rd =>
    .thumb (ThumbParts.toHalf
      { b15 := false, b14 := true, b13 := false, b12 := false, b11 := false
        b10 := false, b9 := false, b8 := false, b7 := false, b6 := true, f3 := rs, f0 := rd })
  | .tLslReg rs rd =>
    .thumb (ThumbParts.toHalf
      { b15 := false, b14 := true, b13 := false, b12 := false, b11 := false
        b10 := false, b9 := false, b8 := false, b7 := true, b6 := false, f3 := rs, f0 := rd })
  | .tLsrReg rs rd =>
    .thumb (ThumbParts.toHalf
      { b15 := false, b14 := true, b13 := false, b12 := false, b11 := false
        b10 := false, b9 := false, b8 := false, b7 := true, b6 := true, f3 := rs, f0 := rd })
  | .tAsrReg rs rd =>
    .thumb (ThumbParts.toHalf
      { b15 := false, b14 := true, b13 := false, b12 := false, b11 := false
        b10 := false, b9 := false, b8 := true, b7 := false, b6 := false, f3 := rs, f0 := rd })
  | .tAdc rs rd =>
    .thumb (ThumbParts.toHalf
      { b15 := false, b14 := true, b13 := false, b12 := false, b11 := false
        b10 := false, b9 := false, b8 := true, b7 := false, b6 := true, f3 := rs, f0 := rd })
  | .tSbc rs rd =>
    .thumb (ThumbParts.toHalf
      { b15 := false, b14 := true, b13 := false, b12 := false, b11 := false
        b10 := false, b9 := false, b8 := true, b7 := true, b6 := false, f3 := rs, f0 := rd })
  | .tRorReg rs rd =>
    .thumb (ThumbParts.toHalf
      { b15 := false, b14 := true, b13 := false, b12 := false, b11 := false
        b10 := false, b9 := false, b8 := true, b7 := true, b6 := true, f3 := rs, f0 := rd })
  | .tTst rs rd =>
    .thumb (ThumbParts.toHalf
      { b15 := false, b14 := true, b13 := false, b12 := false, b11 := false
        b10 := false, b9 := true, b8 := false, b7 := false, b6 := false, f3 := rs, f0 := rd })
  | .tNeg rs rd =>
    .thumb (ThumbParts.toHalf
      { b15 := false, b14 := true, b13 := false, b12 := false, b11 := false
        b10 := false, b9 := true, b8 := false, b7 := false, b6 := true, f3 := rs, f0 := rd })
  | .tCmpReg rs rd =>
    .thumb (ThumbParts.toHalf
      { b15 := false, b14 := true, b13 := false, b12 := false, b11 := false
        b10 := false, b9 := true, b8 := false, b7 := true, b6 := false, f3 := rs, f0 := rd })
  | .tCmn rs rd =>
    .thumb (ThumbParts.toHalf
      { b15 := false, b14 := true, b13 := false, b12 := false, b11 := false
        b10 := false, b9 := true, b8 := false, b7 := true, b6 := true, f3 := rs, f0 := rd })
  | .tOrr rs rd =>
    .thumb (ThumbParts.toHalf
      { b15 := false, b14 := true, b13 := false, b12 := false, b11 := false
        b10 := false, b9 := true, b8 := true, b7 := false, b6 := false, f3 := rs, f0 := rd })
  | .tMul rs rd =>
    .thumb (ThumbParts.toHalf
      { b15 := false, b14 := true, b13 := false, b12 := false, b11 := false
        b10 := false, b9 := true, b8 := true, b7 := false, b6 := true, f3 := rs, f0 := rd })
  | .tBic rs rd =>
    .thumb (ThumbParts.toHalf
      { b15 := false, b14 := true, b13 := false, b12 := false, b11 := false
        b10 := false, b9 := true, b8 := true, b7 := true, b6 := false, f3 := rs, f0 := rd })
  | .tMvn rs rd =>
    .thumb (ThumbParts.toHalf
      { b15 := false, b14 := true, b13 := false, b12 := false, b11 := false
        b10 := false, b9 := true, b8 := true, b7 := true, b6 := true, f3 := rs, f0 := rd })
  | .tAddHi h1 h2 rs rd =>
    .thumb (ThumbParts.toHalf
      { b15 := false, b14 := true, b13 := false, b12 := false, b11 := false
        b10 := true, b9 := false, b8 := false, b7 := h1, b6 := h2, f3 := rs, f0 := rd })
  | .tCmpHi h1 h2 rs rd =>
    .thumb (ThumbParts.toHalf
      { b15 := false, b14 := true, b13 := false, b12 := false, b11 := false
        b10 := true, b9 := false, b8 := true, b7 := h1, b6 := h2, f3 := rs, f0 := rd })
  | .tMovHi h1 h2 rs rd =>
    .thumb (ThumbParts.toHalf
      { b15 := false, b14 := true, b13 := false, b12 := false, b11 := false
        b10 := true, b9 := true, b8 := false, b7 := h1, b6 := h2, f3 := rs, f0 := rd })
  | .tBx h1 h2 rs rd =>
    .thumb (ThumbParts.toHalf
      { b15 := false, b14 := true, b13 := false, b12 := false, b11 := false
        b10 := true, b9 := true, b8 := true, b7 := h1, b6 := h2, f3 := rs, f0 := rd })
  | .tLdrPc rd off =>
    .thumb (ThumbParts.toHalf
      { b15 := false, b14 := true, b13 := false, b12 := false, b11 := true
        b10 := rd.getLsbD 2, b9 := rd.getLsbD 1, b8 := rd.getLsbD 0, b7 := off.getLsbD 7, b6 := off.getLsbD 6, f3 := off.extractLsb' 3 3, f0 := off.extractLsb' 0 3 })
  | .tStrReg ro rb rd =>
    .thumb (ThumbParts.toHalf
      { b15 := false, b14 := true, b13 := false, b12 := true, b11 := false
        b10 := false, b9 := false, b8 := ro.getLsbD 2, b7 := ro.getLsbD 1, b6 := ro.getLsbD 0, f3 := rb, f0 := rd })
  | .tStrhReg ro rb rd =>
    .thumb (ThumbParts.toHalf
      { b15 := false, b14 := true, b13 := false, b12 := true, b11 := false
        b10 := false, b9 := true, b8 := ro.getLsbD 2, b7 := ro.getLsbD 1, b6 := ro.getLsbD 0, f3 := rb, f0 := rd })
  | .tStrbReg ro rb rd =>
    .thumb (ThumbParts.toHalf
      { b15 := false, b14 := true, b13 := false, b12 := true, b11 := false
        b10 := true, b9 := false, b8 := ro.getLsbD 2, b7 := ro.getLsbD 1, b6 := ro.getLsbD 0, f3 := rb, f0 := rd })
  | .tLdrsbReg ro rb rd =>
    .thumb (ThumbParts.toHalf
      { b15 := false, b14 := true, b13 := false, b12 := true, b11 := false
        b10 := true, b9 := true, b8 := ro.getLsbD 2, b7 := ro.getLsbD 1, b6 := ro.getLsbD 0, f3 := rb, f0 := rd })
  | .tLdrReg ro rb rd =>
    .thumb (ThumbParts.toHalf
      { b15 := false, b14 := true, b13 := false, b12 := true, b11 := true
        b10 := false, b9 := false, b8 := ro.getLsbD 2, b7 := ro.getLsbD 1, b6 := ro.getLsbD 0, f3 := rb, f0 := rd })
  | .tLdrhReg ro rb rd =>
    .thumb (ThumbParts.toHalf
      { b15 := false, b14 := true, b13 := false, b12 := true, b11 := true
        b10 := false, b9 := true, b8 := ro.getLsbD 2, b7 := ro.getLsbD 1, b6 := ro.getLsbD 0, f3 := rb, f0 := rd })
  | .tLdrbReg ro rb rd =>
    .thumb (ThumbParts.toHalf
      { b15 := false, b14 := true, b13 := false, b12 := true, b11 := true
        b10 := true, b9 := false, b8 := ro.getLsbD 2, b7 := ro.getLsbD 1, b6 := ro.getLsbD 0, f3 := rb, f0 := rd })
  | .tLdrshReg ro rb rd =>
    .thumb (ThumbParts.toHalf
      { b15 := false, b14 := true, b13 := false, b12 := true, b11 := true
        b10 := true, b9 := true, b8 := ro.getLsbD 2, b7 := ro.getLsbD 1, b6 := ro.getLsbD 0, f3 := rb, f0 := rd })
  | .tStrImm off rb rd =>
    .thumb (ThumbParts.toHalf
      { b15 := false, b14 := true, b13 := true, b12 := false, b11 := false
        b10 := off.getLsbD 4, b9 := off.getLsbD 3, b8 := off.getLsbD 2, b7 := off.getLsbD 1, b6 := off.getLsbD 0, f3 := rb, f0 := rd })
  | .tLdrImm off rb rd =>
    .thumb (ThumbParts.toHalf
      { b15 := false, b14 := true, b13 := true, b12 := false, b11 := true
        b10 := off.getLsbD 4, b9 := off.getLsbD 3, b8 := off.getLsbD 2, b7 := off.getLsbD 1, b6 := off.getLsbD 0, f3 := rb, f0 := rd })
  | .tStrbImm off rb rd =>
    .thumb (ThumbParts.toHalf
      { b15 := false, b14 := true, b13 := true, b12 := true, b11 := false
        b10 := off.getLsbD 4, b9 := off.getLsbD 3, b8 := off.getLsbD 2, b7 := off.getLsbD 1, b6 := off.getLsbD 0, f3 := rb, f0 := rd })
  | .tLdrbImm off rb rd =>
    .thumb (ThumbParts.toHalf
      { b15 := false, b14 := true, b13 := true, b12 := true, b11 := true
        b10 := off.getLsbD 4, b9 := off.getLsbD 3, b8 := off.getLsbD 2, b7 := off.getLsbD 1, b6 := off.getLsbD 0, f3 := rb, f0 := rd })
  | .tStrhImm off rb rd =>
    .thumb (ThumbParts.toHalf
      { b15 := true, b14 := false, b13 := false, b12 := false, b11 := false
        b10 := off.getLsbD 4, b9 := off.getLsbD 3, b8 := off.getLsbD 2, b7 := off.getLsbD 1, b6 := off.getLsbD 0, f3 := rb, f0 := rd })
  | .tLdrhImm off rb rd =>
    .thumb (ThumbParts.toHalf
      { b15 := true, b14 := false, b13 := false, b12 := false, b11 := true
        b10 := off.getLsbD 4, b9 := off.getLsbD 3, b8 := off.getLsbD 2, b7 := off.getLsbD 1, b6 := off.getLsbD 0, f3 := rb, f0 := rd })
  | .tStrSp rd off =>
    .thumb (ThumbParts.toHalf
      { b15 := true, b14 := false, b13 := false, b12 := true, b11 := false
        b10 := rd.getLsbD 2, b9 := rd.getLsbD 1, b8 := rd.getLsbD 0, b7 := off.getLsbD 7, b6 := off.getLsbD 6, f3 := off.extractLsb' 3 3, f0 := off.extractLsb' 0 3 })
  | .tLdrSp rd off =>
    .thumb (ThumbParts.toHalf
      { b15 := true, b14 := false, b13 := false, b12 := true, b11 := true
        b10 := rd.getLsbD 2, b9 := rd.getLsbD 1, b8 := rd.getLsbD 0, b7 := off.getLsbD 7, b6 := off.getLsbD 6, f3 := off.extractLsb' 3 3, f0 := off.extractLsb' 0 3 })
  | .tAddPc rd off =>
    .thumb (ThumbParts.toHalf
      { b15 := true, b14 := false, b13 := true, b12 := false, b11 := false
        b10 := rd.getLsbD 2, b9 := rd.getLsbD 1, b8 := rd.getLsbD 0, b7 := off.getLsbD 7, b6 := off.getLsbD 6, f3 := off.extractLsb' 3 3, f0 := off.extractLsb' 0 3 })
  | .tAddSp rd off =>
    .thumb (ThumbParts.toHalf
      { b15 := true, b14 := false, b13 := true, b12 := false, b11 := true
        b10 := rd.getLsbD 2, b9 := rd.getLsbD 1, b8 := rd.getLsbD 0, b7 := off.getLsbD 7, b6 := off.getLsbD 6, f3 := off.extractLsb' 3 3, f0 := off.extractLsb' 0 3 })
  | .tSpAdd off =>
    .thumb (ThumbParts.toHalf
      { b15 := true, b14 := false, b13 := true, b12 := true, b11 := false
        b10 := false, b9 := false, b8 := false, b7 := false, b6 := off.getLsbD 6, f3 := off.extractLsb' 3 3, f0 := off.extractLsb' 0 3 })
  | .tSpSub off =>
    .thumb (ThumbParts.toHalf
      { b15 := true, b14 := false, b13 := true, b12 := true, b11 := false
        b10 := false, b9 := false, b8 := false, b7 := true, b6 := off.getLsbD 6, f3 := off.extractLsb' 3 3, f0 := off.extractLsb' 0 3 })
  | .tUndefB1 low =>
    .thumb (ThumbParts.toHalf
      { b15 := true, b14 := false, b13 := true, b12 := true, b11 := false
        b10 := false, b9 := false, b8 := true, b7 := low.getLsbD 7, b6 := low.getLsbD 6, f3 := low.extractLsb' 3 3, f0 := low.extractLsb' 0 3 })
  | .tPush r list =>
    .thumb (ThumbParts.toHalf
      { b15 := true, b14 := false, b13 := true, b12 := true, b11 := false
        b10 := true, b9 := false, b8 := r, b7 := list.getLsbD 7, b6 := list.getLsbD 6, f3 := list.extractLsb' 3 3, f0 := list.extractLsb' 0 3 })
  | .tUndefB8 low =>
    .thumb (ThumbParts.toHalf
      { b15 := true, b14 := false, b13 := true, b12 := true, b11 := true
        b10 := false, b9 := false, b8 := low.getLsbD 8, b7 := low.getLsbD 7, b6 := low.getLsbD 6, f3 := low.extractLsb' 3 3, f0 := low.extractLsb' 0 3 })
  | .tPop r list =>
    .thumb (ThumbParts.toHalf
      { b15 := true, b14 := false, b13 := true, b12 := true, b11 := true
        b10 := true, b9 := false, b8 := r, b7 := list.getLsbD 7, b6 := list.getLsbD 6, f3 := list.extractLsb' 3 3, f0 := list.extractLsb' 0 3 })
  | .tUndefB2 b11 b10 low =>
    .thumb (ThumbParts.toHalf
      { b15 := true, b14 := false, b13 := true, b12 := true, b11 := b11
        b10 := b10, b9 := true, b8 := low.getLsbD 8, b7 := low.getLsbD 7, b6 := low.getLsbD 6, f3 := low.extractLsb' 3 3, f0 := low.extractLsb' 0 3 })
  | .tStmia rb list =>
    .thumb (ThumbParts.toHalf
      { b15 := true, b14 := true, b13 := false, b12 := false, b11 := false
        b10 := rb.getLsbD 2, b9 := rb.getLsbD 1, b8 := rb.getLsbD 0, b7 := list.getLsbD 7, b6 := list.getLsbD 6, f3 := list.extractLsb' 3 3, f0 := list.extractLsb' 0 3 })
  | .tLdmia rb list =>
    .thumb (ThumbParts.toHalf
      { b15 := true, b14 := true, b13 := false, b12 := false, b11 := true
        b10 := rb.getLsbD 2, b9 := rb.getLsbD 1, b8 := rb.getLsbD 0, b7 := list.getLsbD 7, b6 := list.getLsbD 6, f3 := list.extractLsb' 3 3, f0 := list.extractLsb' 0 3 })
  | .tBcondD0 cb off =>
    .thumb (ThumbParts.toHalf
      { b15 := true, b14 := true, b13 := false, b12 := true, b11 := false
        b10 := cb.getLsbD 2, b9 := cb.getLsbD 1, b8 := cb.getLsbD 0, b7 := off.getLsbD 7, b6 := off.getLsbD 6, f3 := off.extractLsb' 3 3, f0 := off.extractLsb' 0 3 })
  | .tBcondD8 cb off =>
    .thumb (ThumbParts.toHalf
      { b15 := true, b14 := true, b13 := false, b12 := true, b11 := true
        b10 := false, b9 := cb.getLsbD 1, b8 := cb.getLsbD 0, b7 := off.getLsbD 7, b6 := off.getLsbD 6, f3 := off.extractLsb' 3 3, f0 := off.extractLsb' 0 3 })
  | .tBcondDC cb off =>
    .thumb (ThumbParts.toHalf
      { b15 := true, b14 := true, b13 := false, b12 := true, b11 := true
        b10 := true, b9 := false, b8 := cb.getLsbD 0, b7 := off.getLsbD 7, b6 := off.getLsbD 6, f3 := off.extractLsb' 3 3, f0 := off.extractLsb' 0 3 })
  | .tUndefDE low =>
    .thumb (ThumbParts.toHalf
      { b15 := true, b14 := true, b13 := false, b12 := true, b11 := true
        b10 := true, b9 := true, b8 := false, b7 := low.getLsbD 7, b6 := low.getLsbD 6, f3 := low.extractLsb' 3 3, f0 := low.extractLsb' 0 3 })
  | .tSwi val =>
    .thumb (ThumbParts.toHalf
      { b15 := true, b14 := true, b13 := false, b12 := true, b11 := true
        b10 := true, b9 := true, b8 := true, b7 := val.getLsbD 7, b6 := val.getLsbD 6, f3 := val.extractLsb' 3 3, f0 := val.extractLsb' 0 3 })
  | .tB off =>
    .thumb (ThumbParts.toHalf
      { b15 := true, b14 := true, b13 := true, b12 := false, b11 := false
        b10 := off.getLsbD 10, b9 := off.getLsbD 9, b8 := off.getLsbD 8, b7 := off.getLsbD 7, b6 := off.getLsbD 6, f3 := off.extractLsb' 3 3, f0 := off.extractLsb' 0 3 })
  | .tUndefE8 low =>
    .thumb (ThumbParts.toHalf
      { b15 := true, b14 := true, b13 := true, b12 := false, b11 := true
        b10 := low.getLsbD 10, b9 := low.getLsbD 9, b8 := low.getLsbD 8, b7 := low.getLsbD 7, b6 := low.getLsbD 6, f3 := low.extractLsb' 3 3, f0 := low.extractLsb' 0 3 })
  | .tBlFirst off =>
    .thumb (ThumbParts.toHalf
      { b15 := true, b14 := true, b13 := true, b12 := true, b11 := false
        b10 := off.getLsbD 10, b9 := off.getLsbD 9, b8 := off.getLsbD 8, b7 := off.getLsbD 7, b6 := off.getLsbD 6, f3 := off.extractLsb' 3 3, f0 := off.extractLsb' 0 3 })
  | .tBlSecond off =>
    .thumb (ThumbParts.toHalf
      { b15 := true, b14 := true, b13 := true, b12 := true, b11 := true
        b10 := off.getLsbD 10, b9 := off.getLsbD 9, b8 := off.getLsbD 8, b7 := off.getLsbD 7, b6 := off.getLsbD 6, f3 := off.extractLsb' 3 3, f0 := off.extractLsb' 0 3 })

/-- Whether an instruction is one of the 16-bit set. -/
def isThumb (i : Instr) : Bool :=
  match encode i with
  | .arm _ => false
  | .thumb _ => true

/-- The bytes of an instruction as memory holds them. -/
def encodeBytes (i : Instr) : List Byte :=
  match encode i with
  | .arm w => wordBytes w
  | .thumb h => halfBytes h

end Sys2Proof
end

