-- ==== Sys2Proof/Machine/State.lean ====
section
/-! DEFINITION. The state of GBA-CORE as plain data (10_state.md), its faults and refusals
(00_scope.md R12), and the state right after reset (10_state.md R48). -/

namespace Sys2Proof.Machine

open Sys2Proof

/-- The seven modes (10_state.md R32). CPSR's mode field is always one of them ("mode field must
always decode to one of the seven defined modes"), so it is this type and not five bits. -/
inductive Mode where
  | user | fiq | irq | supervisor | abort | undefined | system
  deriving DecidableEq, Repr

/-- CPSR (10_state.md R34): the four flags, the two masks, the state bit T and the mode. Bits 27:8
are not stored: writes to them are ignored and reads draw them (10_state.md R46). -/
structure Psr where
  n : Bool
  z : Bool
  c : Bool
  v : Bool
  /-- 1: IRQ masked. -/
  i : Bool
  /-- 1: FIQ masked; it gates nothing, no FIQ source exists (00_scope.md R7). -/
  f : Bool
  /-- 0: ARM state, 1: Thumb state. -/
  t : Bool
  mode : Mode
  deriving DecidableEq, Repr

/-- A physical register (10_state.md R31): `usr i` is R<i>_usr, `fiq i` is R<8+i>_fiq, the four
others hold R13 at 0 and R14 at 1, `pc` is R15. -/
inductive PhysReg where
  | usr (i : Fin 15)
  | fiq (i : Fin 7)
  | svc (i : Fin 2)
  | abt (i : Fin 2)
  | irq (i : Fin 2)
  | und (i : Fin 2)
  | pc
  deriving DecidableEq, Repr

/-- The five SPSRs (10_state.md R35). -/
inductive SpsrName where
  | fiq | svc | abt | irq | und
  deriving DecidableEq, Repr

/-- The width of an access to the memory interface (20_memory.md R80, R91). -/
inductive Width where
  | byte | half | word
  deriving DecidableEq, Repr

/-- One access presented to the memory interface (20_memory.md R80, R92). -/
structure BusAccess where
  /-- `true` for `write8/16/32`, `false` for `read8/16/32`. -/
  write : Bool
  width : Width
  addr  : Word
  /-- The value read or written, zero-extended. -/
  value : Word
  /-- The `sequential` argument of `access_cycles` (70_reset_and_hazards.md R550). -/
  seq   : Bool
  /-- The `is_32bit` argument of `access_cycles` (70_reset_and_hazards.md R550). -/
  is32  : Bool
  deriving DecidableEq, Repr

/-- One line of the host's price table: the cost `access_cycles` answers for the accesses of this
kind to the `size` bytes from `base` on (20_memory.md R80; notes/assumptions/7.md). -/
structure AccessPrice where
  seq    : Bool
  is32   : Bool
  base   : Word
  size   : Nat
  cycles : Nat
  deriving DecidableEq, Repr

/-- A run of addresses: the `size` bytes from `base` on. -/
structure AddrRange where
  base : Word
  size : Nat
  deriving DecidableEq, Repr

/-- The parameter `cycle_cost` (70_reset_and_hazards.md R551, decision D27; notes/assumptions/8.md). -/
inductive CostRule where
  /-- The default formula of R551, from the ARM7TDMI timings. -/
  | arm7tdmi
  /-- Any cost of at least 1 a step, the host's choice. -/
  | host
  deriving DecidableEq, Repr

/-- The memory behind the interface: (address, byte) pairs in canonical form (`Memory.WF`). -/
abbrev Memory := List Host.Cell

/-- The UNPREDICTABLE cases the spec makes faults of (93_implementation_defined.md A.2). -/
inductive UnpredictableCase where
  /-- ARM condition field 1111 (30_encoding.md R124). -/
  | nvCondition
  /-- An SBZ field not all zeros or an SBO field not all ones (30_encoding.md R137). -/
  | sbzSbo
  /-- Rs = 15 in a register-specified shift (40_shifter.md R188). -/
  | rsIsPc
  /-- An access to the SPSR, or a restore from it, in User or System mode (10_state.md R35, R42, R43). -/
  | spsrInUserOrSystem
  /-- An MSR whose value has another T bit than CPSR (10_state.md R41). -/
  | msrChangesT
  /-- MRS with Rd = 15 (42_arm_psr_multiply_swap.md R250). -/
  | mrsRdPc
  /-- MSR (register) with Rm = 15 (42_arm_psr_multiply_swap.md R251). -/
  | msrRmPc
  /-- A multiply operand or destination that is R15 (42_arm_psr_multiply_swap.md R253 (a)). -/
  | mulPc
  /-- Overlapping multiply operands (42_arm_psr_multiply_swap.md R253 (b), 45_thumb_alu.md R395). -/
  | mulOverlap
  /-- SWP or SWPB with R15 (42_arm_psr_multiply_swap.md R260). -/
  | swpPc
  /-- SWP or SWPB with Rn = Rm or Rn = Rd (42_arm_psr_multiply_swap.md R260). -/
  | swpOverlap
  /-- The restrictions on loads and stores (43_arm_load_store.md R291, R300). -/
  | lsPc
  /-- LDM or STM with Rn = 15 (43_arm_load_store.md R305). -/
  | ldmStmPcBase
  /-- LDM^ or STM^ where the spec forbids it (43_arm_load_store.md R308, R310). -/
  | ldmStmUserBank
  /-- A banked register accessed right after a user-bank LDM (10_state.md R45 (f)). -/
  | userBankHazard
  /-- Thumb format 5 with two low registers, or BX with H1 or Rd_Hd set (30_encoding.md R160). -/
  | thumbHireg
  deriving DecidableEq, Repr

/-- The faults of 00_scope.md R12. "No fault changes any register, flag or memory location": a
fault has no next state. -/
inductive Fault where
  /-- Raised by MSR (10_state.md R41) and by the SPSR restore (R42) when the mode field `m` decodes
  to none of the seven modes. Safe: the spec's own fault, and the machine stops. -/
  | invalidMode (m : BitVec 5)
  /-- Raised by the meaning of an instruction whose encoding or operands are UNPREDICTABLE (decision
  D8). Safe: the spec's own fault, and the machine stops. -/
  | unpredictable (case : UnpredictableCase)
  /-- Raised by a store of the instruction at `a` into the next two instruction slots (20_memory.md
  R98). Safe: the spec's own fault, and the machine stops. -/
  | pipelineHazard (a : Word)
  deriving DecidableEq, Repr

/-- The refusals. -/
inductive Refusal where
  /-- Raised by an arm of `exec` whose instruction has no meaning yet. Safe: the machine stops. No arm
  of this model raises it. -/
  | notModelled (mnemonic : String)
  deriving DecidableEq, Repr

/-- The state of the machine. -/
structure State where
  /-- R0_usr..R14_usr (10_state.md R31). -/
  usr : Vector Word 15
  /-- R8_fiq..R14_fiq. -/
  fiq : Vector Word 7
  /-- R13_svc, R14_svc. -/
  svc : Vector Word 2
  /-- R13_abt, R14_abt. -/
  abt : Vector Word 2
  /-- R13_irq, R14_irq. -/
  irq : Vector Word 2
  /-- R13_und, R14_und. -/
  und : Vector Word 2
  /-- R15: between steps the address of the next instruction to fetch, inside a step the address of
  the executing one (10_state.md R40). -/
  pc : Word
  cpsr : Psr
  spsrFiq : Word
  spsrSvc : Word
  spsrAbt : Word
  spsrIrq : Word
  spsrUnd : Word
  /-- `last_fetch_addr` (10_state.md R45 (a)). -/
  lastFetch : Option Word
  /-- `user_bank_hazard` (10_state.md R45 (f)). -/
  userBankHazard : Bool
  /-- The ordinary memory behind the interface (20_memory.md R80, R81, R82). -/
  mem : Memory
  /-- The addresses the platform answers itself, by its own rules and not as ordinary memory
  (20_memory.md R92, R93; notes/assumptions/5.md). -/
  devices : List AddrRange
  /-- The platform's own state behind those addresses, under whatever numbering the platform has for it
  (00_scope.md R9, 70_reset_and_hazards.md R548). -/
  platform : Nat
  /-- `irq_line`, the host's level (10_state.md R45 (d)). -/
  irqLine : Bool
  /-- `break_flag`, the host's (10_state.md R45 (b)). -/
  breakFlag : Bool
  /-- `is_breakpoint`: the addresses it answers true for (70_reset_and_hazards.md R545). -/
  breakpoints : List Word
  /-- `cycle_budget` (10_state.md R45 (c)). -/
  cycleBudget : Int
  /-- `access_cycles` as the host's price table (20_memory.md R80). -/
  accessTable : List AccessPrice
  /-- `cycle_cost` (70_reset_and_hazards.md R551). -/
  costRule : CostRule
  /-- The model's own: the accesses of the current step, oldest first (notes/assumptions/19.md). -/
  bus : List BusAccess
  /-- The model's own: the index of the next `draw()` (notes/assumptions/6.md). -/
  draws : Nat
  deriving DecidableEq, Repr

/-- CPSR after reset (10_state.md R48): Supervisor, I = F = 1, T = 0. N, Z, C, V are unspecified there;
0 is a DESIGN CHOICE, unsafe (notes/assumptions/2.md). -/
def Psr.reset : Psr :=
  { n := false, z := false, c := false, v := false, i := true, f := true, t := false, mode := .supervisor }

/-- The machine right after reset (10_state.md R48, 70_reset_and_hazards.md R541). The values the spec
leaves unspecified are DESIGN CHOICES, unsafe: R0..R14 of every bank (notes/assumptions/1.md), the
SPSRs (2), the host-owned fields (3), the memory an unlisted address reads as (4), the free-value
counter (6). -/
def State.reset : State :=
  { usr := .replicate 15 0, fiq := .replicate 7 0, svc := .replicate 2 0, abt := .replicate 2 0
    irq := .replicate 2 0, und := .replicate 2 0
    pc := 0, cpsr := Psr.reset
    spsrFiq := 0, spsrSvc := 0, spsrAbt := 0, spsrIrq := 0, spsrUnd := 0
    lastFetch := none, userBankHazard := false
    mem := [], devices := [], platform := 0, irqLine := false, breakFlag := false, breakpoints := []
    cycleBudget := 0x7FFFFFFF, accessTable := [], costRule := .arm7tdmi, bus := [], draws := 0 }

/-- The outcome of a step or of an instruction. -/
abbrev Result := Host.Outcome State Fault Refusal

end Sys2Proof.Machine
end

