-- ==== Sys2Proof/Config.lean ====
section
/-! DEFINITION. What the spec leaves open, as opaque constants with no body: no proof can see a value, and every
theorem holds whatever it is. The `draw()` of 00_scope.md R11, "any 1-bit or 32-bit value, under no law":
the n-th draw of a run is the constant applied to n, the counter `State.draws` (notes/assumptions/6.md). The
parameters `Mem` (00_scope.md R9) and `cycle_cost` (70_reset_and_hazards.md R551): the platform's answers and
the host's costs (notes/assumptions/5.md, 8.md). -/

namespace Sys2Proof

open Sys2Proof.Machine

/-- DESIGN CHOICE (log 6), safe: the n-th `draw()` where the rule draws one bit: C and V after a
flag-setting multiply (42_arm_psr_multiply_swap.md R253, 45_thumb_alu.md R395). -/
opaque Config.freeBit : Nat → Bool

/-- DESIGN CHOICE (log 6), safe: the n-th `draw()` where the rule draws CPSR[27:8] (10_state.md R46). -/
opaque Config.freeReserved : Nat → BitVec 20

/-- DESIGN CHOICE (log 5), safe: what the platform in a given state answers to a read of a width at one of
its own addresses (20_memory.md R80, R92). -/
opaque Config.platformRead : Nat → Width → Word → Word

/-- DESIGN CHOICE (log 5), safe: the platform's state after an access to one of its own addresses, its side
effect (20_memory.md R92). -/
opaque Config.platformNext : Nat → BusAccess → Nat

/-- DESIGN CHOICE (log 8), safe: the host's cost of the step from the first state to the second
(70_reset_and_hazards.md R551); the budget in the second is the one the default formula leaves. -/
opaque Config.cycleCost : State → State → Nat

end Sys2Proof
end

