-- ==== Sys2Proof/Machine/Ops.lean ====
section
/-! DEFINITION. The named operations over registers, status registers, memory, the program counter and
the cycle budget, and taking an exception and returning from one. Every meaning reads and writes the
state through these. Inside a step `s.pc` is `instr_addr`, the address of the executing instruction. -/

namespace Sys2Proof.Machine

open Sys2Proof

/-! ## Results -/

/-- Go on with `k` from the next state; a fault or a refusal ends the step. -/
def andThen (r : Result) (k : State → Result) : Result :=
  match r with
  | .next s => k s
  | .fault f => .fault f
  | .refused f => .refused f

/-- The fault `Unpredictable(case)` where `bad` holds (00_scope.md R12), else `k`. -/
def faultIf (bad : Bool) (case : UnpredictableCase) (k : Result) : Result :=
  if bad then .fault (.unpredictable case) else k

/-! ## Modes and banks (10_state.md R31, R32, R36) -/

/-- The five bits of a mode (10_state.md R32). -/
def Mode.toBits : Mode → BitVec 5
  | .user => 0b10000 | .fiq => 0b10001 | .irq => 0b10010 | .supervisor => 0b10011
  | .abort => 0b10111 | .undefined => 0b11011 | .system => 0b11111

/-- The mode five bits decode to; 25 of the 32 values decode to none (10_state.md R32). -/
def modeOfBits (b : BitVec 5) : Option Mode :=
  match b.toNat with
  | 0b10000 => some .user | 0b10001 => some .fiq | 0b10010 => some .irq | 0b10011 => some .supervisor
  | 0b10111 => some .abort | 0b11011 => some .undefined | 0b11111 => some .system | _ => none

/-- Every mode but User is privileged (10_state.md R33, 90_conflicts.md C2). -/
def Mode.privileged (m : Mode) : Bool := m != .user

/-- The SPSR of a mode; User and System have none (10_state.md R35). -/
def Mode.spsr : Mode → Option SpsrName
  | .user => none | .system => none
  | .fiq => some .fiq | .irq => some .irq | .supervisor => some .svc | .abort => some .abt
  | .undefined => some .und

/-- R13 and R14 of a mode with a two-register bank, at offset 0 and 1 (10_state.md R31). -/
def bankHigh (m : Mode) (i : Fin 2) : PhysReg :=
  match m with
  | .user => .usr (Fin.ofNat 15 (13 + i.val)) | .system => .usr (Fin.ofNat 15 (13 + i.val))
  | .fiq => .fiq (Fin.ofNat 7 (5 + i.val))
  | .supervisor => .svc i | .abort => .abt i | .irq => .irq i | .undefined => .und i

/-- `bank(m, i)` (10_state.md R36); R15 is the one `pc` of every mode. -/
def bank (m : Mode) (r : Reg) : PhysReg :=
  if r.toNat ≤ 7 then .usr (Fin.ofNat 15 r.toNat)
  else if r.toNat ≤ 12 then
    (if m = .fiq then .fiq (Fin.ofNat 7 (r.toNat - 8)) else .usr (Fin.ofNat 15 r.toNat))
  else if r.toNat ≤ 14 then bankHigh m (Fin.ofNat 2 (r.toNat - 13))
  else .pc

/-- The value of a physical register. -/
def readPhys (s : State) : PhysReg → Word
  | .usr i => s.usr.get i
  | .fiq i => s.fiq.get i
  | .svc i => s.svc.get i
  | .abt i => s.abt.get i
  | .irq i => s.irq.get i
  | .und i => s.und.get i
  | .pc => s.pc

/-- The state with a physical register written. -/
def writePhys (s : State) (p : PhysReg) (v : Word) : State :=
  match p with
  | .usr i => { s with usr := s.usr.set i.val v i.isLt }
  | .fiq i => { s with fiq := s.fiq.set i.val v i.isLt }
  | .svc i => { s with svc := s.svc.set i.val v i.isLt }
  | .abt i => { s with abt := s.abt.set i.val v i.isLt }
  | .irq i => { s with irq := s.irq.set i.val v i.isLt }
  | .und i => { s with und := s.und.set i.val v i.isLt }
  | .pc => { s with pc := v }

/-- `x[i]` read: the register visible in the current mode (10_state.md R36). -/
def readReg (s : State) (r : Reg) : Word := readPhys s (bank s.cpsr.mode r)

/-- `x[i] <- v` (10_state.md R36). -/
def setReg (s : State) (r : Reg) (v : Word) : State := writePhys s (bank s.cpsr.mode r) v

/-- `x_usr[i]` read: the User bank whatever the mode (10_state.md R36). -/
def readUsrReg (s : State) (r : Reg) : Word := readPhys s (bank .user r)

/-- `x_usr[i] <- v` (10_state.md R36). -/
def setUsrReg (s : State) (r : Reg) (v : Word) : State := writePhys s (bank .user r) v

/-- Write the listed registers of the current bank in order; R15 is left to `writePc`. -/
def setRegs (s : State) : List (Reg × Word) → State
  | [] => s
  | (r, v) :: rest => setRegs (if r = 15 then s else setReg s r v) rest

/-- Write the listed registers of the User bank in order. -/
def setUsrRegs (s : State) : List (Reg × Word) → State
  | [] => s
  | (r, v) :: rest => setUsrRegs (setUsrReg s r v) rest

/-- Whether an instruction that accesses `x[i]` for the registers of `rs` meets the user-bank hazard: the
bit is set and one of them is banked away from the User bank (10_state.md R45 (f),
70_reset_and_hazards.md R549 (d)). R15 is not read through `x[i]`. -/
def bankHazard (s : State) (rs : List Reg) : Bool :=
  s.userBankHazard && rs.any (fun r => r != 15 && bank s.cpsr.mode r != bank .user r)

/-! ## Cycles (70_reset_and_hazards.md R550, R551) -/

/-- `access_cycles(sequential, is_32bit, address)` (20_memory.md R80) from the host's table: the first
line that covers the access, else 1. DESIGN CHOICE (log 7): the default of 1; statements hold for
every table. -/
def accessCycles (table : List AccessPrice) (seq is32 : Bool) (a : Word) : Nat :=
  match table.find? (fun p => p.seq == seq && p.is32 == is32 &&
      decide (p.base.toNat ≤ a.toNat) && decide (a.toNat < p.base.toNat + p.size)) with
  | some p => p.cycles
  | none => 1

/-- Debit the running budget ("debits its running budget by the returned value", 20_memory.md R80). -/
def charge (s : State) (n : Nat) : State := { s with cycleBudget := s.cycleBudget - n }

/-! ## Memory (20_memory.md) -/

/-- What an address with no entry reads as. DESIGN CHOICE (log 4), unsafe: the spec gives no contents. -/
def Memory.unlisted : Byte := 0

/-- `read8`. -/
def Memory.read : Memory → Nat → Byte
  | [], _ => Memory.unlisted
  | (a, b) :: rest, k => if a = k then b else Memory.read rest k

/-- Add an entry at its place in the order of addresses. -/
def Memory.insert : Memory → Nat → Byte → Memory
  | [], k, v => [(k, v)]
  | (a, b) :: rest, k, v =>
    if k < a then (k, v) :: (a, b) :: rest else (a, b) :: Memory.insert rest k v

/-- `write8`, in canonical form: writing what an unlisted address reads as removes the entry. -/
def Memory.write (m : Memory) (k : Nat) (v : Byte) : Memory :=
  let rest := m.filter (fun c => c.1 != k)
  if v = Memory.unlisted then rest else Memory.insert rest k v

/-- The canonical form: addresses strictly rising and below 2^32, no entry equal to an unlisted byte. -/
abbrev Memory.WF (m : Memory) : Prop :=
  m.Pairwise (fun a b => a.1 < b.1) ∧ ∀ c ∈ m, c.2 ≠ Memory.unlisted ∧ c.1 < 2 ^ 32

/-- The byte at an address. -/
def byteAt (m : Memory) (a : Word) : Byte := Memory.read m a.toNat

/-- The memory with the byte at an address written. -/
def setByteAt (m : Memory) (a : Word) (v : Byte) : Memory := Memory.write m a.toNat v

/-- `MemRead(a, n)`, little endian, zero-extended (20_memory.md R82, R83). -/
def memRead (m : Memory) (w : Width) (a : Word) : Word :=
  match w with
  | .byte => (byteAt m a).setWidth 32
  | .half => (byteAt m (a + 1) ++ byteAt m a).setWidth 32
  | .word => byteAt m (a + 3) ++ byteAt m (a + 2) ++ byteAt m (a + 1) ++ byteAt m a

/-- `MemWrite(a, n, v)`, little endian, the low 8n bits of v (20_memory.md R82, R83). -/
def memWrite (m : Memory) (w : Width) (a : Word) (v : Word) : Memory :=
  match w with
  | .byte => setByteAt m a (v.extractLsb' 0 8)
  | .half => setByteAt (setByteAt m a (v.extractLsb' 0 8)) (a + 1) (v.extractLsb' 8 8)
  | .word =>
    setByteAt (setByteAt (setByteAt (setByteAt m a (v.extractLsb' 0 8)) (a + 1) (v.extractLsb' 8 8))
      (a + 2) (v.extractLsb' 16 8)) (a + 3) (v.extractLsb' 24 8)

/-- The number of bytes of an access. -/
def Width.bytes : Width → Nat
  | .byte => 1 | .half => 2 | .word => 4

/-- The low 8n bits of a value, zero-extended: what the interface is handed. -/
def Width.cut (w : Width) (v : Word) : Word :=
  match w with
  | .byte => (v.extractLsb' 0 8).setWidth 32
  | .half => (v.extractLsb' 0 16).setWidth 32
  | .word => v

/-- `a AND NOT 3`. -/
def alignWord (a : Word) : Word := a &&& 0xFFFFFFFC

/-- `a AND NOT 1`. -/
def alignHalf (a : Word) : Word := a &&& 0xFFFFFFFE

/-- The address an access of that width presents for a computed address: aligned to the width
(20_memory.md R83, R85, R87, R88). -/
def alignTo (w : Width) (a : Word) : Word :=
  match w with
  | .byte => a
  | .half => alignHalf a
  | .word => alignWord a

/-! ## The memory interface (20_memory.md R80, R92, R93) -/

/-- Whether the platform answers an access at this address itself. DESIGN CHOICE (log 5), safe: whole words are
divided, never their bytes, so a word of which a range takes in one byte is the platform's whole, wherever
the range begins or ends in it; an empty range takes in nothing, and no range goes on past the top of the
address space. -/
def isDevice (devices : List AddrRange) (a : Word) : Bool :=
  devices.any (fun r => decide (0 < r.size) && decide ((alignWord r.base).toNat ≤ (alignWord a).toNat)
    && decide ((alignWord a).toNat < r.base.toNat + r.size))

/-- The value `read8/16/32` answers (20_memory.md R80): ordinary memory's (R82), or the platform's, cut to the
width. -/
def busRead (s : State) (w : Width) (a : Word) : Word :=
  if isDevice s.devices a then w.cut (Config.platformRead s.platform w a) else memRead s.mem w a

/-- The ordinary memory after `write8/16/32` (20_memory.md R80): a write to a platform's address leaves it. -/
def busWrite (s : State) (w : Width) (a v : Word) : Memory :=
  if isDevice s.devices a then s.mem else memWrite s.mem w a v

/-- The platform's state after an access: the side effect of one that it answers itself (20_memory.md R92). -/
def platformStep (devices : List AddrRange) (platform : Nat) (x : BusAccess) : Nat :=
  if isDevice devices x.addr then Config.platformNext platform x else platform

/-- Present one access to the memory interface: record it, let the platform act on it, debit its cost
(20_memory.md R80, R92). -/
def noteAccess (s : State) (x : BusAccess) : State :=
  charge { s with bus := s.bus ++ [x], platform := platformStep s.devices s.platform x }
    (accessCycles s.accessTable x.seq x.is32 x.addr)

/-- The loads of 20_memory.md R84, R86, R88. -/
inductive LoadKind where
  | word | half | signedHalf | byte | signedByte
  deriving DecidableEq, Repr

/-- The width of the access a load makes at an address: an odd LDRSH reads one byte (20_memory.md R86). -/
def loadWidth (k : LoadKind) (a : Word) : Width :=
  match k with
  | .word => .word
  | .half => .half
  | .signedHalf => if a.getLsbD 0 then .byte else .half
  | .byte => .byte
  | .signedByte => .byte

/-- The value a load gives: `LoadWord` (20_memory.md R84), `LoadHalf`, `LoadSignedHalf` (R86), `LoadByte`,
`LoadSignedByte` (R88). -/
def loadValue (s : State) (k : LoadKind) (a : Word) : Word :=
  match k with
  | .word => (busRead s .word (alignWord a)).rotateRight (8 * (a.extractLsb' 0 2).toNat)
  | .half => (busRead s .half (alignHalf a)).rotateRight (8 * (a.extractLsb' 0 1).toNat)
  | .signedHalf =>
    if a.getLsbD 0 then ((busRead s .byte a).extractLsb' 0 8).signExtend 32
    else ((busRead s .half a).extractLsb' 0 16).signExtend 32
  | .byte => busRead s .byte a
  | .signedByte => ((busRead s .byte a).extractLsb' 0 8).signExtend 32

/-- The one read access of a load (20_memory.md R83, R92). -/
def noteLoad (s : State) (seq : Bool) (k : LoadKind) (a : Word) : State :=
  let w := loadWidth k a
  noteAccess s { write := false, width := w, addr := alignTo w a, value := busRead s w (alignTo w a)
                 seq := seq, is32 := w == .word }

/-! ## The program counter (10_state.md R38, R39, R40) -/

/-- `w`, the instruction width of the current state (00_scope.md R11). -/
def instrWidth (s : State) : Word := if s.cpsr.t then 2 else 4

/-- R15 as an operand `off` bytes ahead of the instruction (10_state.md R38). -/
def pcRead (s : State) (off : Word) : Word := s.pc + off

/-- The PC advance (10_state.md R40), which ends every instruction that does not write R15; the
user-bank hazard ends with the instruction (10_state.md R45 (f)). -/
def advance (s : State) : State := { s with pc := s.pc + instrWidth s, userBankHazard := false }

/-- The fetch address a value written to R15 gives: the low bits no instruction of the state can have are
cleared (10_state.md R39, decision D7). -/
def fetchAddress (t : Bool) (v : Word) : Word := if t then alignHalf v else alignWord v

/-- The refill cost of a step that writes R15 or enters an exception (70_reset_and_hazards.md R551). -/
def refill (s : State) : State :=
  charge s (accessCycles s.accessTable true (!s.cpsr.t) (s.pc + instrWidth s))

/-- `write_pc(v)` with T as it is now (10_state.md R39), which ends the instruction; the fetch after it is not
sequential, wherever it goes (70_reset_and_hazards.md R550). -/
def writePc (s : State) (v : Word) : State :=
  refill { s with pc := fetchAddress s.cpsr.t v, userBankHazard := false, lastFetch := none }

/-- Whether an n-byte store at `a` by the executing instruction overlaps [A + w, A + 3w), the two slots
already fetched (20_memory.md R98). DEDUCED (log 13), safe: the window wraps modulo 2^32. -/
def storeHitsPipeline (s : State) (w : Width) (a : Word) : Bool :=
  (List.range w.bytes).any (fun k =>
    decide ((a + BitVec.ofNat 32 k - (s.pc + instrWidth s)).toNat < 2 * (instrWidth s).toNat))

/-- One store: `StoreWord`, `StoreHalf`, `StoreByte` (20_memory.md R85, R87, R88) or the fault
`PipelineHazard` (R98). -/
def store (s : State) (seq : Bool) (w : Width) (a : Word) (v : Word) : Result :=
  if storeHitsPipeline s w (alignTo w a) then .fault (.pipelineHazard s.pc)
  else .next (noteAccess { s with mem := busWrite s w (alignTo w a) v }
    { write := true, width := w, addr := alignTo w a, value := w.cut v, seq := seq, is32 := w == .word })

/-! ## Block transfers (20_memory.md R89, 43_arm_load_store.md R305) -/

/-- The accesses of a block load: the first non-sequential, the others sequential
(70_reset_and_hazards.md R550). -/
def noteBlockLoads (s : State) (seq : Bool) (a : Word) : List Reg → State
  | [] => s
  | _ :: rest => noteBlockLoads (noteLoad s seq .word (alignWord a)) true (a + 4) rest

/-- The words a block load reads, each with its register: aligned, not rotated, each read after the accesses
before it (20_memory.md R92). -/
def blockValues (s : State) (seq : Bool) (a : Word) : List Reg → List (Reg × Word)
  | [] => []
  | r :: rest =>
    (r, busRead s .word (alignWord a)) :: blockValues (noteLoad s seq .word (alignWord a)) true (a + 4) rest

/-- The stores of a block store, in order of address. -/
def storeBlock (s : State) (seq : Bool) (a : Word) : List Word → Result
  | [] => .next s
  | v :: rest => andThen (store s seq .word a v) (fun s1 => storeBlock s1 true (a + 4) rest)

/-! ## Free values (00_scope.md R11) -/

/-- The bit the next `draw()` gives. -/
def drawnBit (s : State) : Bool := Config.freeBit s.draws

/-- The state after one `draw()`. -/
def drew (s : State) : State := { s with draws := s.draws + 1 }

/-! ## Status registers (10_state.md R34, R35, R41..R43) -/

/-- CPSR as a word, with the given bits 27:8 (10_state.md R34, R46). -/
def psrWord (p : Psr) (reserved : BitVec 20) : Word :=
  BitVec.ofBool p.n ++ BitVec.ofBool p.z ++ BitVec.ofBool p.c ++ BitVec.ofBool p.v ++ reserved
    ++ BitVec.ofBool p.i ++ BitVec.ofBool p.f ++ BitVec.ofBool p.t ++ p.mode.toBits

/-- CPSR as the next read gives it: bits 27:8 are drawn (10_state.md R46). -/
def cpsrRead (s : State) : Word := psrWord s.cpsr (Config.freeReserved s.draws)

/-- The value of an SPSR. -/
def readSpsr (s : State) : SpsrName → Word
  | .fiq => s.spsrFiq | .svc => s.spsrSvc | .abt => s.spsrAbt | .irq => s.spsrIrq | .und => s.spsrUnd

/-- The state with an SPSR written. -/
def setSpsr (s : State) (n : SpsrName) (v : Word) : State :=
  match n with
  | .fiq => { s with spsrFiq := v }
  | .svc => { s with spsrSvc := v }
  | .abt => { s with spsrAbt := v }
  | .irq => { s with spsrIrq := v }
  | .und => { s with spsrUnd := v }

/-- N, Z, C, V from bits 31:28 of a word. -/
def flagsFrom (p : Psr) (v : Word) : Psr :=
  { p with n := v.getLsbD 31, z := v.getLsbD 30, c := v.getLsbD 29, v := v.getLsbD 28 }

/-- `write_cpsr(v, mask)` (10_state.md R41): in User mode only the f field; the checks of the c field come
before any write. -/
def writeCpsr (s : State) (v : Word) (mask : BitVec 4) : Result :=
  let eff := if s.cpsr.mode.privileged then mask else mask &&& 0b1000
  let p := if eff.getLsbD 3 then flagsFrom s.cpsr v else s.cpsr
  if eff.getLsbD 0 then
    faultIf (v.getLsbD 5 != s.cpsr.t) .msrChangesT
      (match modeOfBits (v.extractLsb' 0 5) with
       | none => .fault (.invalidMode (v.extractLsb' 0 5))
       | some m => .next { s with cpsr := { p with i := v.getLsbD 7, f := v.getLsbD 6, mode := m } })
  else .next { s with cpsr := p }

/-- The bytes of `old` replaced by those of `v` that the field mask selects: f [31:24], s [23:16],
x [15:8], c [7:0] (10_state.md R41, R43). -/
def mergeFields (old v : Word) (mask : BitVec 4) : Word :=
  (if mask.getLsbD 3 then v else old).extractLsb' 24 8 ++ (if mask.getLsbD 2 then v else old).extractLsb' 16 8
    ++ (if mask.getLsbD 1 then v else old).extractLsb' 8 8 ++ (if mask.getLsbD 0 then v else old).extractLsb' 0 8

/-- `write_spsr(v, mask)` (10_state.md R43). -/
def writeSpsr (s : State) (v : Word) (mask : BitVec 4) : Result :=
  match s.cpsr.mode.spsr with
  | none => .fault (.unpredictable .spsrInUserOrSystem)
  | some n => .next (setSpsr s n (mergeFields (readSpsr s n) v mask))

/-! ## Exceptions (60_exceptions.md) -/

/-- The exceptions this core raises (60_exceptions.md R490). -/
inductive ExceptionKind where
  | undefinedInstr | softwareInterrupt | hardwareInterrupt
  deriving DecidableEq, Repr

/-- `m_k` (60_exceptions.md R496). -/
def ExceptionKind.mode : ExceptionKind → Mode
  | .undefinedInstr => .undefined | .softwareInterrupt => .supervisor | .hardwareInterrupt => .irq

/-- The SPSR of `m_k`. -/
def ExceptionKind.spsr : ExceptionKind → SpsrName
  | .undefinedInstr => .und | .softwareInterrupt => .svc | .hardwareInterrupt => .irq

/-- `vec_k` (60_exceptions.md R496, R497). -/
def ExceptionKind.vector : ExceptionKind → Word
  | .undefinedInstr => 0x00000004 | .softwareInterrupt => 0x00000008 | .hardwareInterrupt => 0x00000018

/-- Exception entry, one transition for the three kinds (60_exceptions.md R495): R14 and SPSR of the target
mode take the return address and the old CPSR, the mode changes, T is cleared, I is set, F and the flags
stay, R15 is the vector, and the fetch there is not sequential. -/
def enterException (k : ExceptionKind) (ret : Word) (s : State) : State :=
  let saved := setSpsr (writePhys s (bankHigh k.mode 1) ret) k.spsr (cpsrRead s)
  refill { drew saved with
    cpsr := { s.cpsr with mode := k.mode, t := false, i := true }
    pc := k.vector
    userBankHazard := false
    lastFetch := none }

/-- `raise Undefined()` (60_exceptions.md R495, R496), with one internal cycle
(70_reset_and_hazards.md R551). -/
def raiseUndefined (s : State) : Result :=
  .next (enterException .undefinedInstr (s.pc + instrWidth s) (charge s 1))

/-- `raise SoftwareInterrupt()` (60_exceptions.md R495, R496). -/
def raiseSoftwareInterrupt (s : State) : Result :=
  .next (enterException .softwareInterrupt (s.pc + instrWidth s) s)

/-- `restore_cpsr()`, the return from an exception (10_state.md R42, 60_exceptions.md R500): all of CPSR
from the SPSR of the mode being left. -/
def restoreCpsr (s : State) : Result :=
  match s.cpsr.mode.spsr with
  | none => .fault (.unpredictable .spsrInUserOrSystem)
  | some n =>
    let v := readSpsr s n
    match modeOfBits (v.extractLsb' 0 5) with
    | none => .fault (.invalidMode (v.extractLsb' 0 5))
    | some m =>
      .next { s with cpsr := { flagsFrom s.cpsr v with
        i := v.getLsbD 7, f := v.getLsbD 6, t := v.getLsbD 5, mode := m } }

end Sys2Proof.Machine
end

