-- ==== Sys2Proof/Machine/Boundary.lean ====
section
/-! DEFINITION. The boundary between two instructions and the parts of a step around the execution: the
host's checks, the IRQ check, the fetch and the debit (70_reset_and_hazards.md R543, R550, R551;
60_exceptions.md R493, R499; 20_memory.md R90). -/

namespace Sys2Proof.Machine

open Sys2Proof

/-- Whether the core makes no step at this boundary: the break flag, a breakpoint at R15, or a budget
that is not positive (70_reset_and_hazards.md R543..R546). -/
def hostHolds (s : State) : Bool :=
  s.breakFlag || s.breakpoints.contains s.pc || decide (s.cycleBudget ≤ 0)

/-- Whether the IRQ is taken at this boundary (60_exceptions.md R493). -/
def irqTaken (s : State) : Bool := s.irqLine && !s.cpsr.i

/-- The debit of a step (70_reset_and_hazards.md R551, `cycle_cost`): what the default formula has charged, or
the host's own cost; at least one cycle either way. -/
def debit (before after : State) : State :=
  match before.costRule with
  | .arm7tdmi => { after with cycleBudget := min after.cycleBudget (before.cycleBudget - 1) }
  | .host => { after with cycleBudget := before.cycleBudget - (max 1 (Config.cycleCost before after) : Nat) }

/-- Enter the IRQ handler (60_exceptions.md R495, R496: the return address is R15 + 4 in both states) for
its entry cost (70_reset_and_hazards.md R551). -/
def irqStep (s : State) : State :=
  debit s (enterException .hardwareInterrupt (s.pc + 4)
    (charge { s with bus := [] } (accessCycles s.accessTable true (!s.cpsr.t) s.pc)))

/-- The bits of the next instruction: a word in ARM state, a halfword in Thumb state (20_memory.md R90). -/
def fetchCode (s : State) : Code :=
  if s.cpsr.t then .thumb ((busRead s .half s.pc).extractLsb' 0 16) else .arm (busRead s .word s.pc)

/-- The width of the fetch. -/
def fetchWidth (s : State) : Width := if s.cpsr.t then .half else .word

/-- Whether the fetch is sequential (70_reset_and_hazards.md R550); reset, a PC write and an exception entry leave
no `last_fetch_addr`. DEDUCED (log 16): the fetch after a store is sequential by this formula, where the
totals that the table of R551 gives STR, STM and PUSH count it as non-sequential. -/
def fetchSequential (s : State) : Bool :=
  match s.lastFetch with
  | none => false
  | some a => s.pc == a + instrWidth s

/-- The state in which the instruction executes: its fetch made and debited, R15 still its address
(30_encoding.md R121), which is `last_fetch_addr` from here on (70_reset_and_hazards.md R543). -/
def fetched (s : State) : State :=
  noteAccess { s with bus := [], lastFetch := some s.pc }
    { write := false, width := fetchWidth s, addr := s.pc, value := busRead s (fetchWidth s) s.pc
      seq := fetchSequential s, is32 := !s.cpsr.t }

/-- Write bytes to consecutive addresses. -/
def placeBytes (m : Memory) (a : Word) : List Byte → Memory
  | [] => m
  | b :: rest => placeBytes (setByteAt m a b) (a + 1) rest

/-- The state with the bytes of an instruction at R15, its instruction set selected, and nothing at this
boundary in the way of its fetch (notes/assumptions/18.md). -/
def placeNext (s : State) (thumb : Bool) (bytes : List Byte) : State :=
  { s with
    mem := placeBytes s.mem s.pc bytes
    devices := s.devices.filter (fun r => !isDevice [r] s.pc)
    cpsr := { s.cpsr with t := thumb }
    breakFlag := false
    breakpoints := s.breakpoints.filter (fun a => a != s.pc)
    cycleBudget := max s.cycleBudget 1
    irqLine := s.irqLine && s.cpsr.i }

end Sys2Proof.Machine
end

