-- ==== Sys2Proof/Machine/Flags.lean ====
section
/-! DEFINITION. The condition check and every flag computation (30_encoding.md R123, R124;
41_arm_data_processing.md R211, R212; 42_arm_psr_multiply_swap.md R253). -/

namespace Sys2Proof.Machine

open Sys2Proof

/-- The predicate of a condition on N, Z, C, V (30_encoding.md R123); NV passes never. -/
def condHolds (c : Cond) (p : Psr) : Bool :=
  match c with
  | .eq => p.z | .ne => !p.z
  | .cs => p.c | .cc => !p.c
  | .mi => p.n | .pl => !p.n
  | .vs => p.v | .vc => !p.v
  | .hi => p.c && !p.z | .ls => !p.c || p.z
  | .ge => p.n == p.v | .lt => p.n != p.v
  | .gt => !p.z && p.n == p.v | .le => p.z || p.n != p.v
  | .al => true | .nv => false

/-- The condition check of an ARM instruction (30_encoding.md R124): NV faults, a failed condition only
advances the PC. -/
def whenCond (c : Cond) (s : State) (k : Result) : Result :=
  faultIf (c == .nv) .nvCondition (if condHolds c s.cpsr then k else .next (advance s))

/-- What `AddWithCarry` gives (41_arm_data_processing.md R212). -/
structure Sum where
  result : Word
  carry : Bool
  overflow : Bool
  deriving DecidableEq, Repr

/-- `AddWithCarry(x, y, cin)` (41_arm_data_processing.md R212): the mathematical sum, its low 32 bits, its
33rd bit, and the sign rule. -/
def addWithCarry (x y : Word) (cin : Bool) : Sum :=
  let exact := x.toNat + y.toNat + cin.toNat
  let result : Word := BitVec.ofNat 32 exact
  { result := result, carry := decide (2 ^ 32 ≤ exact), overflow := x.msb == y.msb && result.msb != x.msb }

/-- The logical flags (41_arm_data_processing.md R211): N, Z from the result, C given, V unchanged. -/
def logicalFlags (p : Psr) (r : Word) (c : Bool) : Psr := { p with n := r.msb, z := r == 0, c := c }

/-- The arithmetic flags (41_arm_data_processing.md R212). -/
def arithFlags (p : Psr) (a : Sum) : Psr :=
  { p with n := a.result.msb, z := a.result == 0, c := a.carry, v := a.overflow }

/-- The flags of MULS, MLAS and the Thumb MUL (42_arm_psr_multiply_swap.md R253 (c), 45_thumb_alu.md R395):
C is drawn, V unchanged. -/
def mulFlags (p : Psr) (r : Word) (drawnC : Bool) : Psr := { p with n := r.msb, z := r == 0, c := drawnC }

/-- The flags of a long multiply (42_arm_psr_multiply_swap.md R253 (c)): from 64 bits, C and V drawn. -/
def mulLongFlags (p : Psr) (r : BitVec 64) (drawnC drawnV : Bool) : Psr :=
  { p with n := r.msb, z := r == 0, c := drawnC, v := drawnV }

end Sys2Proof.Machine
end

