-- ==== Sys2Proof/Machine/Operands.lean ====
section
/-! DEFINITION. Every operand form: the barrel shifter and its three contexts (40_shifter.md), Operand2,
the load/store addressing modes and the register lists. -/

namespace Sys2Proof.Machine

open Sys2Proof

/-! ## The shift functions (40_shifter.md R180..R184) -/

/-- `LSL_C` (40_shifter.md R181). -/
def lslC (v : Word) (n : Nat) (c : Bool) : Word × Bool :=
  if n = 0 then (v, c)
  else if n ≤ 31 then (v <<< n, v.getLsbD (32 - n))
  else if n = 32 then (0, v.getLsbD 0)
  else (0, false)

/-- `LSR_C` (40_shifter.md R182). -/
def lsrC (v : Word) (n : Nat) (c : Bool) : Word × Bool :=
  if n = 0 then (v, c)
  else if n ≤ 31 then (v >>> n, v.getLsbD (n - 1))
  else if n = 32 then (0, v.getLsbD 31)
  else (0, false)

/-- `ASR_C` (40_shifter.md R183). -/
def asrC (v : Word) (n : Nat) (c : Bool) : Word × Bool :=
  if n = 0 then (v, c)
  else if n ≤ 31 then (v.sshiftRight n, v.getLsbD (n - 1))
  else (if v.msb then 0xFFFFFFFF else 0, v.msb)

/-- `ROR_C` (40_shifter.md R184). -/
def rorC (v : Word) (n : Nat) (c : Bool) : Word × Bool :=
  if n = 0 then (v, c)
  else if n % 32 = 0 then (v, v.getLsbD 31)
  else (v.rotateRight (n % 32), v.getLsbD (n % 32 - 1))

/-- `RRX_C` (40_shifter.md R184). -/
def rrxC (v : Word) (c : Bool) : Word × Bool := (BitVec.ofBool c ++ v.extractLsb' 1 31, v.getLsbD 0)

/-- The shift-by-register context (40_shifter.md R187): an amount 0..255, zero not reinterpreted. -/
def shiftByReg (k : ShiftKind) (v : Word) (n : Nat) (c : Bool) : Word × Bool :=
  match k with
  | .lsl => lslC v n c
  | .lsr => lsrC v n c
  | .asr => asrC v n c
  | .ror => rorC v n c

/-- The shift-by-immediate context (40_shifter.md R186): LSR #0 and ASR #0 are by 32, ROR #0 is RRX. -/
def shiftByImm (k : ShiftKind) (v : Word) (amt : BitVec 5) (c : Bool) : Word × Bool :=
  match k with
  | .lsl => lslC v amt.toNat c
  | .lsr => lsrC v (if amt = 0 then 32 else amt.toNat) c
  | .asr => asrC v (if amt = 0 then 32 else amt.toNat) c
  | .ror => if amt = 0 then rrxC v c else rorC v amt.toNat c

/-- The immediate-rotate context (40_shifter.md R185). -/
def rotatedImm (rot : BitVec 4) (imm : BitVec 8) (c : Bool) : Word × Bool :=
  if rot = 0 then (imm.setWidth 32, c)
  else
    let r := ((imm.setWidth 32 : Word)).rotateRight (2 * rot.toNat)
    (r, r.msb)

/-- The shift amount of a register: its low byte (40_shifter.md R187). -/
def shiftAmount (v : Word) : Nat := (v.extractLsb' 0 8).toNat

/-! ## Operand2 (40_shifter.md R188) -/

/-- The three forms of Operand2 (30_encoding.md R125). -/
inductive Operand2 where
  | imm (rot : BitVec 4) (imm : BitVec 8)
  | immShift (amt : BitVec 5) (k : ShiftKind) (rm : Reg)
  | regShift (rs : Reg) (k : ShiftKind) (rm : Reg)
  deriving DecidableEq, Repr

/-- How far R15 reads ahead as Rn or Rm: 8, or 12 with a register-specified shift (10_state.md R38). -/
def Operand2.pcOffset : Operand2 → Word
  | .imm _ _ => 8
  | .immShift _ _ _ => 8
  | .regShift _ _ _ => 12

/-- Whether the form names R15 as its shift amount, a fault (40_shifter.md R188). -/
def Operand2.rsIsPc : Operand2 → Bool
  | .imm _ _ => false
  | .immShift _ _ _ => false
  | .regShift rs _ _ => rs == 15

/-- The registers Operand2 reads. -/
def Operand2.regs : Operand2 → List Reg
  | .imm _ _ => []
  | .immShift _ _ rm => [rm]
  | .regShift rs _ rm => [rs, rm]

/-- The internal cycles of the form (70_reset_and_hazards.md R551). -/
def Operand2.internal : Operand2 → Nat
  | .imm _ _ => 0
  | .immShift _ _ _ => 0
  | .regShift _ _ _ => 1

/-- A register operand, R15 read `off` bytes ahead (10_state.md R38). -/
def operandReg (s : State) (r : Reg) (off : Word) : Word := if r = 15 then pcRead s off else readReg s r

/-- `(op2, shifter_carry)` (40_shifter.md R188). -/
def operand2 (s : State) (o : Operand2) : Word × Bool :=
  match o with
  | .imm rot i => rotatedImm rot i s.cpsr.c
  | .immShift amt k rm => shiftByImm k (operandReg s rm o.pcOffset) amt s.cpsr.c
  | .regShift rs k rm => shiftByReg k (operandReg s rm o.pcOffset) (shiftAmount (readReg s rs)) s.cpsr.c

/-! ## Load/store addressing (43_arm_load_store.md R290, R300) -/

/-- The offset forms of the single transfers (30_encoding.md R130, R131). -/
inductive Offset where
  /-- A zero-extended immediate: imm12, or imm[7:4]:imm[3:0]. -/
  | imm (v : Word)
  /-- A register shifted by an immediate (40_shifter.md R189). -/
  | scaled (amt : BitVec 5) (k : ShiftKind) (rm : Reg)
  /-- A plain register (43_arm_load_store.md R300). -/
  | reg (rm : Reg)
  deriving DecidableEq, Repr

/-- The register of a register offset. -/
def Offset.regs : Offset → List Reg
  | .imm _ => []
  | .scaled _ _ rm => [rm]
  | .reg rm => [rm]

/-- Whether the offset register is R15. -/
def Offset.isPc : Offset → Bool
  | .imm _ => false
  | .scaled _ _ rm => rm == 15
  | .reg rm => rm == 15

/-- Whether the offset is a register shifted by an immediate, and that register is `r`. -/
def Offset.scaledBy (o : Offset) (r : Reg) : Bool :=
  match o with
  | .imm _ => false
  | .scaled _ _ rm => rm == r
  | .reg _ => false

/-- Whether the offset is the plain register `r`. -/
def Offset.isReg (o : Offset) (r : Reg) : Bool :=
  match o with
  | .imm _ => false
  | .scaled _ _ _ => false
  | .reg rm => rm == r

/-- The value of the offset; the shifter's carry-out is discarded (40_shifter.md R189). -/
def offsetValue (s : State) (o : Offset) : Word :=
  match o with
  | .imm v => v
  | .scaled amt k rm => (shiftByImm k (readReg s rm) amt s.cpsr.c).1
  | .reg rm => readReg s rm

/-- The P, U and W bits of a single transfer (30_encoding.md R130, R131). -/
structure Indexing where
  p : Bool
  u : Bool
  w : Bool
  deriving DecidableEq, Repr

/-- `writeback` (43_arm_load_store.md R290). -/
def Indexing.writeback (x : Indexing) : Bool := !x.p || x.w

/-- `offset_addr` (43_arm_load_store.md R290): base plus or minus the offset, modulo 2^32. -/
def offsetAddr (s : State) (x : Indexing) (rn : Reg) (o : Offset) : Word :=
  if x.u then operandReg s rn 8 + offsetValue s o else operandReg s rn 8 - offsetValue s o

/-- `addr` (43_arm_load_store.md R290): pre-indexed the offset address, post-indexed the base. -/
def transferAddr (s : State) (x : Indexing) (rn : Reg) (o : Offset) : Word :=
  if x.p then offsetAddr s x rn o else operandReg s rn 8

/-! ## Register lists (43_arm_load_store.md R305, R311) -/

/-- The registers of a list, ascending. -/
def listedRegs (list : BitVec 16) : List Reg :=
  ((List.range 16).filter (fun i => list.getLsbD i)).map (BitVec.ofNat 4)

/-- The registers transferred: an empty list transfers R15 alone (43_arm_load_store.md R311). -/
def transferredRegs (list : BitVec 16) : List Reg := if list = 0 then [15] else listedRegs list

/-- The number of registers the base moves by: 16 for an empty list (43_arm_load_store.md R311). -/
def transferCount (list : BitVec 16) : Nat := if list = 0 then 16 else (listedRegs list).length

/-- Four bytes a register. -/
def transferBytes (list : BitVec 16) : Word := BitVec.ofNat 32 (4 * transferCount list)

/-- `start` (43_arm_load_store.md R305). -/
def blockStart (p u : Bool) (base : Word) (list : BitVec 16) : Word :=
  match p, u with
  | false, true => base
  | true, true => base + 4
  | false, false => base - transferBytes list + 4
  | true, false => base - transferBytes list

/-- `new_base` (43_arm_load_store.md R305). -/
def blockNewBase (u : Bool) (base : Word) (list : BitVec 16) : Word :=
  if u then base + transferBytes list else base - transferBytes list

/-! ## Thumb operands (30_encoding.md R139, R144, R161) -/

/-- The register a 3-bit field names. -/
def lowReg (r : LowReg) : Reg := 0#1 ++ r

/-- The register `H:r` of format 5 names (30_encoding.md R144). -/
def highReg (h : Bool) (r : LowReg) : Reg := BitVec.ofBool h ++ r

/-- The word-scaled offset of an 8-bit or 7-bit or 5-bit field: `zext_32(x) << 2` (30_encoding.md R161). -/
def scaledWord {n : Nat} (x : BitVec n) : Word := (x.setWidth 32 : Word) <<< 2

/-- `(instr_addr + 4) AND NOT 3` (10_state.md R38, 46_thumb_load_store.md R420). -/
def literalBase (s : State) : Word := alignWord (pcRead s 4)

end Sys2Proof.Machine
end

