-- ==== Sys2Proof/Machine/BlockTransfer.lean ====
section
/-! DEFINITION. LDM and STM in every mode and S form (43_arm_load_store.md R305..R311). -/

namespace Sys2Proof.Machine

open Sys2Proof

/-- The state of a block load before R15 is written: the accesses, the written-back base (not when the base
is loaded), the loaded registers (43_arm_load_store.md R306, R309). -/
def blockLoaded (s : State) (w : Bool) (rn : Reg) (start newBase : Word) (regs : List Reg) : State :=
  let s1 := noteBlockLoads (charge s 1) false start regs
  let s2 := if w && !regs.contains rn then setReg s1 rn newBase else s1
  setRegs s2 (blockValues (charge s 1) false start regs)

/-- The word a block load read for R15, where R15 is transferred. -/
def loadedPc (s : State) (start : Word) (regs : List Reg) : Option Word :=
  (blockValues s false start regs).lookup 15

/-- LDM that loads the current bank; `restore` is the exception return (43_arm_load_store.md R306, R308 (a)). -/
def blockLoad (restore : Bool) (s : State) (w : Bool) (rn : Reg) (start newBase : Word) (regs : List Reg) :
    Result :=
  let s1 := blockLoaded s w rn start newBase regs
  match loadedPc (charge s 1) start regs with
  | none => .next (advance s1)
  | some v =>
    if restore then andThen (restoreCpsr s1) (fun s2 => .next (writePc s2 v)) else .next (writePc s1 v)

/-- LDM that loads the User bank (43_arm_load_store.md R308 (b)); the user-bank hazard begins. -/
def blockLoadUser (s : State) (start : Word) (regs : List Reg) : Result :=
  let s1 := charge s 1
  .next { advance (setUsrRegs (noteBlockLoads s1 false start regs) (blockValues s1 false start regs)) with
    userBankHazard := true }

/-- The words a block store writes, R15 as `pcOff` bytes ahead; a written-back base is stored as it was when
it is the lowest register and as it will be otherwise (43_arm_load_store.md R307, R309). -/
def storedWords (s : State) (pcOff : Word) (w : Bool) (rn : Reg) (newBase : Word) (regs : List Reg) : List Word :=
  regs.map (fun r =>
    if r = 15 then pcRead s pcOff
    else if r = rn && w && regs.head? != some r then newBase
    else readReg s r)

/-- The words a user-bank store writes (43_arm_load_store.md R310). -/
def storedUserWords (s : State) (regs : List Reg) : List Word :=
  regs.map (fun r => if r = 15 then pcRead s 12 else readUsrReg s r)

/-- A block store of the given words, then the write-back (43_arm_load_store.md R307). -/
def blockStore (s : State) (w : Bool) (rn : Reg) (start newBase : Word) (words : List Word) : Result :=
  andThen (storeBlock s false start words) (fun s1 =>
    .next (advance (if w then setReg s1 rn newBase else s1)))

/-- LDM (43_arm_load_store.md R305, R306, R308, R309, R311). DEDUCED (log 12): with S = 1 an empty list
transfers R15 and is the exception return. -/
def loadMultiple (c : Cond) (p u sf w : Bool) (rn : Reg) (list : BitVec 16) (s : State) : Result :=
  let base := readReg s rn
  let regs := transferredRegs list
  let start := blockStart p u base list
  let newBase := blockNewBase u base list
  whenCond c s <|
  faultIf (rn == 15) .ldmStmPcBase <|
  faultIf (sf && s.cpsr.mode.spsr == none) .ldmStmUserBank <|
  if sf && !regs.contains 15 then
    faultIf w .ldmStmUserBank <|
    faultIf (bankHazard s [rn]) .userBankHazard <|
    blockLoadUser s start regs
  else
    faultIf (bankHazard s (rn :: regs)) .userBankHazard <|
    blockLoad sf s w rn start newBase regs

/-- STM (43_arm_load_store.md R305, R307, R309, R310, R311). -/
def storeMultiple (c : Cond) (p u sf w : Bool) (rn : Reg) (list : BitVec 16) (s : State) : Result :=
  let base := readReg s rn
  let regs := transferredRegs list
  let start := blockStart p u base list
  let newBase := blockNewBase u base list
  whenCond c s <|
  faultIf (rn == 15) .ldmStmPcBase <|
  faultIf (sf && (s.cpsr.mode.spsr == none || w)) .ldmStmUserBank <|
  faultIf (bankHazard s (rn :: if sf then [] else regs)) .userBankHazard <|
  blockStore s w rn start newBase (if sf then storedUserWords s regs else storedWords s 12 w rn newBase regs)

/-! ## The meanings, one per row of the opcode table -/

/-- LDM, block data transfer (43_arm_load_store.md R306). -/
def execLdm (c : Cond) (p u sf w : Bool) (rn : Reg) (list : BitVec 16) (s : State) : Result :=
  loadMultiple c p u sf w rn list s

/-- STM, block data transfer (43_arm_load_store.md R307). -/
def execStm (c : Cond) (p u sf w : Bool) (rn : Reg) (list : BitVec 16) (s : State) : Result :=
  storeMultiple c p u sf w rn list s

end Sys2Proof.Machine
end

