-- ==== Sys2Proof/Machine/Branch.lean ====
section
/-! DEFINITION. B, BL, BX and SWI in ARM state (44_arm_branch_system.md R340..R343). -/

namespace Sys2Proof.Machine

open Sys2Proof

/-- The target of B and BL (44_arm_branch_system.md R340; 30_encoding.md R133). -/
def branchTarget (s : State) (off : BitVec 24) : Word := pcRead s 8 + (off.signExtend 32 <<< 2)

/-- B (44_arm_branch_system.md R340). -/
def branch (c : Cond) (off : BitVec 24) (s : State) : Result :=
  whenCond c s <| .next (writePc s (branchTarget s off))

/-- BL (44_arm_branch_system.md R341). -/
def branchLink (c : Cond) (off : BitVec 24) (s : State) : Result :=
  whenCond c s <|
  faultIf (bankHazard s [14]) .userBankHazard <|
  .next (writePc (setReg s 14 (s.pc + 4)) (branchTarget s off))

/-- The exchange of BX: T from bit 0 of the target, then the fetch address with the new T
(44_arm_branch_system.md R342, 45_thumb_alu.md R401). -/
def exchange (s : State) (target : Word) : State :=
  writePc { s with cpsr := { s.cpsr with t := target.getLsbD 0 } } target

/-- BX (44_arm_branch_system.md R342). -/
def branchExchange (c : Cond) (sbo : BitVec 12) (rm : Reg) (s : State) : Result :=
  whenCond c s <|
  faultIf (sbo != 0xFFF) .sbzSbo <|
  faultIf (bankHazard s [rm]) .userBankHazard <|
  .next (exchange s (operandReg s rm 8))

/-! ## The meanings, one per row of the opcode table -/

/-- B, branch (44_arm_branch_system.md R340). -/
def execB (c : Cond) (off : BitVec 24) (s : State) : Result :=
  branch c off s

/-- BL, branch (44_arm_branch_system.md R341). -/
def execBl (c : Cond) (off : BitVec 24) (s : State) : Result :=
  branchLink c off s

/-- BX, branch and exchange (44_arm_branch_system.md R342). -/
def execBx (c : Cond) (sbo : BitVec 12) (rm : Reg) (s : State) : Result :=
  branchExchange c sbo rm s

/-- SWI, software interrupt (44_arm_branch_system.md R343). -/
def execSwi (c : Cond) (_cmt : BitVec 24) (s : State) : Result :=
  whenCond c s (raiseSoftwareInterrupt s)

end Sys2Proof.Machine
end

