-- ==== Sys2Proof/Machine/DataProcessing.lean ====
section
/-! DEFINITION. The ARM data-processing instructions (41_arm_data_processing.md): one shared execution
(R210), the sixteen operations (R213..R228), and a meaning for each operation in each of the three
Operand2 forms. -/

namespace Sys2Proof.Machine

open Sys2Proof

/-- The sixteen operations (30_encoding.md R125). -/
inductive DpOp where
  | and | eor | sub | rsb | add | adc | sbc | rsc | tst | teq | cmp | cmn | orr | mov | bic | mvn
  deriving DecidableEq, Repr

/-- TST, TEQ, CMP, CMN write flags only (41_arm_data_processing.md R210). -/
def DpOp.isTest : DpOp → Bool
  | .tst => true | .teq => true | .cmp => true | .cmn => true
  | .and => false | .eor => false | .sub => false | .rsb => false | .add => false | .adc => false
  | .sbc => false | .rsc => false | .orr => false | .mov => false | .bic => false | .mvn => false

/-- MOV and MVN do not read Rn (41_arm_data_processing.md R226, R228). -/
def DpOp.isMove : DpOp → Bool
  | .mov => true | .mvn => true
  | .and => false | .eor => false | .sub => false | .rsb => false | .add => false | .adc => false
  | .sbc => false | .rsc => false | .tst => false | .teq => false | .cmp => false | .cmn => false
  | .orr => false | .bic => false

/-- A logical operation's result with its flags (41_arm_data_processing.md R211). -/
def logicalOut (p : Psr) (r : Word) (sc : Bool) : Word × Psr := (r, logicalFlags p r sc)

/-- An arithmetic operation's result with its flags (41_arm_data_processing.md R212). -/
def arithOut (p : Psr) (a : Sum) : Word × Psr := (a.result, arithFlags p a)

/-- The result of an operation on `a` (Rn) and `b` (op2), and CPSR with its flags
(41_arm_data_processing.md R213..R228). -/
def dpCompute (op : DpOp) (a b : Word) (sc : Bool) (p : Psr) : Word × Psr :=
  match op with
  | .and => logicalOut p (a &&& b) sc
  | .eor => logicalOut p (a ^^^ b) sc
  | .sub => arithOut p (addWithCarry a (~~~b) true)
  | .rsb => arithOut p (addWithCarry b (~~~a) true)
  | .add => arithOut p (addWithCarry a b false)
  | .adc => arithOut p (addWithCarry a b p.c)
  | .sbc => arithOut p (addWithCarry a (~~~b) p.c)
  | .rsc => arithOut p (addWithCarry b (~~~a) p.c)
  | .tst => logicalOut p (a &&& b) sc
  | .teq => logicalOut p (a ^^^ b) sc
  | .cmp => arithOut p (addWithCarry a (~~~b) true)
  | .cmn => arithOut p (addWithCarry a b false)
  | .orr => logicalOut p (a ||| b) sc
  | .mov => logicalOut p b sc
  | .bic => logicalOut p (a &&& ~~~b) sc
  | .mvn => logicalOut p (~~~b) sc

/-- An SBZ field that is not zero: Rn of MOV and MVN, Rd of the tests (30_encoding.md R137). -/
def dpSbzBad (op : DpOp) (rn rd : Reg) : Bool := (op.isMove && rn != 0) || (op.isTest && rd != 0)

/-- The registers the instruction accesses through `x[i]`. -/
def dpRegs (op : DpOp) (rn rd : Reg) (o : Operand2) : List Reg :=
  (if op.isMove then [] else [rn]) ++ o.regs ++ (if op.isTest then [] else [rd])

/-- Where the result and the flags go (41_arm_data_processing.md R210). -/
def dpWrite (op : DpOp) (sf : Bool) (rd : Reg) (out : Word × Psr) (s : State) : Result :=
  if op.isTest then .next (advance { s with cpsr := out.2 })
  else if rd = 15 then
    (if sf then andThen (restoreCpsr s) (fun s1 => .next (writePc s1 out.1)) else .next (writePc s out.1))
  else .next (advance (setReg (if sf then { s with cpsr := out.2 } else s) rd out.1))

/-- What the operation gives in a state: its operands read as 41_arm_data_processing.md R210 and
40_shifter.md R188 say. -/
def dpOutcome (op : DpOp) (rn : Reg) (o : Operand2) (s : State) : Word × Psr :=
  dpCompute op (operandReg s rn o.pcOffset) (operand2 s o).1 (operand2 s o).2 s.cpsr

/-- Data-processing execution, common to the sixteen operations (41_arm_data_processing.md R210). -/
def dataProcessing (op : DpOp) (c : Cond) (sf : Bool) (rn rd : Reg) (o : Operand2) (s : State) : Result :=
  whenCond c s <|
  faultIf (dpSbzBad op rn rd) .sbzSbo <|
  faultIf o.rsIsPc .rsIsPc <|
  faultIf (bankHazard s (dpRegs op rn rd o)) .userBankHazard <|
  dpWrite op sf rd (dpOutcome op rn o s) (charge s o.internal)

/-! ## The meanings, one per row of the opcode table -/

/-- AND, data processing, register shifted by immediate (41_arm_data_processing.md R213). -/
def execAndImmShift (c : Cond) (sf : Bool) (rn rd : Reg) (amt : BitVec 5) (k : ShiftKind) (rm : Reg) (s : State) : Result :=
  dataProcessing .and c sf rn rd (.immShift amt k rm) s

/-- AND, data processing, register shifted by register (41_arm_data_processing.md R213). -/
def execAndRegShift (c : Cond) (sf : Bool) (rn rd rs : Reg) (k : ShiftKind) (rm : Reg) (s : State) : Result :=
  dataProcessing .and c sf rn rd (.regShift rs k rm) s

/-- AND, data processing, immediate (41_arm_data_processing.md R213). -/
def execAndImm (c : Cond) (sf : Bool) (rn rd : Reg) (rot : BitVec 4) (imm : BitVec 8) (s : State) : Result :=
  dataProcessing .and c sf rn rd (.imm rot imm) s

/-- EOR, data processing, register shifted by immediate (41_arm_data_processing.md R214). -/
def execEorImmShift (c : Cond) (sf : Bool) (rn rd : Reg) (amt : BitVec 5) (k : ShiftKind) (rm : Reg) (s : State) : Result :=
  dataProcessing .eor c sf rn rd (.immShift amt k rm) s

/-- EOR, data processing, register shifted by register (41_arm_data_processing.md R214). -/
def execEorRegShift (c : Cond) (sf : Bool) (rn rd rs : Reg) (k : ShiftKind) (rm : Reg) (s : State) : Result :=
  dataProcessing .eor c sf rn rd (.regShift rs k rm) s

/-- EOR, data processing, immediate (41_arm_data_processing.md R214). -/
def execEorImm (c : Cond) (sf : Bool) (rn rd : Reg) (rot : BitVec 4) (imm : BitVec 8) (s : State) : Result :=
  dataProcessing .eor c sf rn rd (.imm rot imm) s

/-- SUB, data processing, register shifted by immediate (41_arm_data_processing.md R215). -/
def execSubImmShift (c : Cond) (sf : Bool) (rn rd : Reg) (amt : BitVec 5) (k : ShiftKind) (rm : Reg) (s : State) : Result :=
  dataProcessing .sub c sf rn rd (.immShift amt k rm) s

/-- SUB, data processing, register shifted by register (41_arm_data_processing.md R215). -/
def execSubRegShift (c : Cond) (sf : Bool) (rn rd rs : Reg) (k : ShiftKind) (rm : Reg) (s : State) : Result :=
  dataProcessing .sub c sf rn rd (.regShift rs k rm) s

/-- SUB, data processing, immediate (41_arm_data_processing.md R215). -/
def execSubImm (c : Cond) (sf : Bool) (rn rd : Reg) (rot : BitVec 4) (imm : BitVec 8) (s : State) : Result :=
  dataProcessing .sub c sf rn rd (.imm rot imm) s

/-- RSB, data processing, register shifted by immediate (41_arm_data_processing.md R216). -/
def execRsbImmShift (c : Cond) (sf : Bool) (rn rd : Reg) (amt : BitVec 5) (k : ShiftKind) (rm : Reg) (s : State) : Result :=
  dataProcessing .rsb c sf rn rd (.immShift amt k rm) s

/-- RSB, data processing, register shifted by register (41_arm_data_processing.md R216). -/
def execRsbRegShift (c : Cond) (sf : Bool) (rn rd rs : Reg) (k : ShiftKind) (rm : Reg) (s : State) : Result :=
  dataProcessing .rsb c sf rn rd (.regShift rs k rm) s

/-- RSB, data processing, immediate (41_arm_data_processing.md R216). -/
def execRsbImm (c : Cond) (sf : Bool) (rn rd : Reg) (rot : BitVec 4) (imm : BitVec 8) (s : State) : Result :=
  dataProcessing .rsb c sf rn rd (.imm rot imm) s

/-- ADD, data processing, register shifted by immediate (41_arm_data_processing.md R217). -/
def execAddImmShift (c : Cond) (sf : Bool) (rn rd : Reg) (amt : BitVec 5) (k : ShiftKind) (rm : Reg) (s : State) : Result :=
  dataProcessing .add c sf rn rd (.immShift amt k rm) s

/-- ADD, data processing, register shifted by register (41_arm_data_processing.md R217). -/
def execAddRegShift (c : Cond) (sf : Bool) (rn rd rs : Reg) (k : ShiftKind) (rm : Reg) (s : State) : Result :=
  dataProcessing .add c sf rn rd (.regShift rs k rm) s

/-- ADD, data processing, immediate (41_arm_data_processing.md R217). -/
def execAddImm (c : Cond) (sf : Bool) (rn rd : Reg) (rot : BitVec 4) (imm : BitVec 8) (s : State) : Result :=
  dataProcessing .add c sf rn rd (.imm rot imm) s

/-- ADC, data processing, register shifted by immediate (41_arm_data_processing.md R218). -/
def execAdcImmShift (c : Cond) (sf : Bool) (rn rd : Reg) (amt : BitVec 5) (k : ShiftKind) (rm : Reg) (s : State) : Result :=
  dataProcessing .adc c sf rn rd (.immShift amt k rm) s

/-- ADC, data processing, register shifted by register (41_arm_data_processing.md R218). -/
def execAdcRegShift (c : Cond) (sf : Bool) (rn rd rs : Reg) (k : ShiftKind) (rm : Reg) (s : State) : Result :=
  dataProcessing .adc c sf rn rd (.regShift rs k rm) s

/-- ADC, data processing, immediate (41_arm_data_processing.md R218). -/
def execAdcImm (c : Cond) (sf : Bool) (rn rd : Reg) (rot : BitVec 4) (imm : BitVec 8) (s : State) : Result :=
  dataProcessing .adc c sf rn rd (.imm rot imm) s

/-- SBC, data processing, register shifted by immediate (41_arm_data_processing.md R219). -/
def execSbcImmShift (c : Cond) (sf : Bool) (rn rd : Reg) (amt : BitVec 5) (k : ShiftKind) (rm : Reg) (s : State) : Result :=
  dataProcessing .sbc c sf rn rd (.immShift amt k rm) s

/-- SBC, data processing, register shifted by register (41_arm_data_processing.md R219). -/
def execSbcRegShift (c : Cond) (sf : Bool) (rn rd rs : Reg) (k : ShiftKind) (rm : Reg) (s : State) : Result :=
  dataProcessing .sbc c sf rn rd (.regShift rs k rm) s

/-- SBC, data processing, immediate (41_arm_data_processing.md R219). -/
def execSbcImm (c : Cond) (sf : Bool) (rn rd : Reg) (rot : BitVec 4) (imm : BitVec 8) (s : State) : Result :=
  dataProcessing .sbc c sf rn rd (.imm rot imm) s

/-- RSC, data processing, register shifted by immediate (41_arm_data_processing.md R220). -/
def execRscImmShift (c : Cond) (sf : Bool) (rn rd : Reg) (amt : BitVec 5) (k : ShiftKind) (rm : Reg) (s : State) : Result :=
  dataProcessing .rsc c sf rn rd (.immShift amt k rm) s

/-- RSC, data processing, register shifted by register (41_arm_data_processing.md R220). -/
def execRscRegShift (c : Cond) (sf : Bool) (rn rd rs : Reg) (k : ShiftKind) (rm : Reg) (s : State) : Result :=
  dataProcessing .rsc c sf rn rd (.regShift rs k rm) s

/-- RSC, data processing, immediate (41_arm_data_processing.md R220). -/
def execRscImm (c : Cond) (sf : Bool) (rn rd : Reg) (rot : BitVec 4) (imm : BitVec 8) (s : State) : Result :=
  dataProcessing .rsc c sf rn rd (.imm rot imm) s

/-- TST, data processing, register shifted by immediate (41_arm_data_processing.md R221). -/
def execTstImmShift (c : Cond) (rn rd : Reg) (amt : BitVec 5) (k : ShiftKind) (rm : Reg) (s : State) : Result :=
  dataProcessing .tst c true rn rd (.immShift amt k rm) s

/-- TST, data processing, register shifted by register (41_arm_data_processing.md R221). -/
def execTstRegShift (c : Cond) (rn rd rs : Reg) (k : ShiftKind) (rm : Reg) (s : State) : Result :=
  dataProcessing .tst c true rn rd (.regShift rs k rm) s

/-- TST, data processing, immediate (41_arm_data_processing.md R221). -/
def execTstImm (c : Cond) (rn rd : Reg) (rot : BitVec 4) (imm : BitVec 8) (s : State) : Result :=
  dataProcessing .tst c true rn rd (.imm rot imm) s

/-- TEQ, data processing, register shifted by immediate (41_arm_data_processing.md R222). -/
def execTeqImmShift (c : Cond) (rn rd : Reg) (amt : BitVec 5) (k : ShiftKind) (rm : Reg) (s : State) : Result :=
  dataProcessing .teq c true rn rd (.immShift amt k rm) s

/-- TEQ, data processing, register shifted by register (41_arm_data_processing.md R222). -/
def execTeqRegShift (c : Cond) (rn rd rs : Reg) (k : ShiftKind) (rm : Reg) (s : State) : Result :=
  dataProcessing .teq c true rn rd (.regShift rs k rm) s

/-- TEQ, data processing, immediate (41_arm_data_processing.md R222). -/
def execTeqImm (c : Cond) (rn rd : Reg) (rot : BitVec 4) (imm : BitVec 8) (s : State) : Result :=
  dataProcessing .teq c true rn rd (.imm rot imm) s

/-- CMP, data processing, register shifted by immediate (41_arm_data_processing.md R223). -/
def execCmpImmShift (c : Cond) (rn rd : Reg) (amt : BitVec 5) (k : ShiftKind) (rm : Reg) (s : State) : Result :=
  dataProcessing .cmp c true rn rd (.immShift amt k rm) s

/-- CMP, data processing, register shifted by register (41_arm_data_processing.md R223). -/
def execCmpRegShift (c : Cond) (rn rd rs : Reg) (k : ShiftKind) (rm : Reg) (s : State) : Result :=
  dataProcessing .cmp c true rn rd (.regShift rs k rm) s

/-- CMP, data processing, immediate (41_arm_data_processing.md R223). -/
def execCmpImm (c : Cond) (rn rd : Reg) (rot : BitVec 4) (imm : BitVec 8) (s : State) : Result :=
  dataProcessing .cmp c true rn rd (.imm rot imm) s

/-- CMN, data processing, register shifted by immediate (41_arm_data_processing.md R224). -/
def execCmnImmShift (c : Cond) (rn rd : Reg) (amt : BitVec 5) (k : ShiftKind) (rm : Reg) (s : State) : Result :=
  dataProcessing .cmn c true rn rd (.immShift amt k rm) s

/-- CMN, data processing, register shifted by register (41_arm_data_processing.md R224). -/
def execCmnRegShift (c : Cond) (rn rd rs : Reg) (k : ShiftKind) (rm : Reg) (s : State) : Result :=
  dataProcessing .cmn c true rn rd (.regShift rs k rm) s

/-- CMN, data processing, immediate (41_arm_data_processing.md R224). -/
def execCmnImm (c : Cond) (rn rd : Reg) (rot : BitVec 4) (imm : BitVec 8) (s : State) : Result :=
  dataProcessing .cmn c true rn rd (.imm rot imm) s

/-- ORR, data processing, register shifted by immediate (41_arm_data_processing.md R225). -/
def execOrrImmShift (c : Cond) (sf : Bool) (rn rd : Reg) (amt : BitVec 5) (k : ShiftKind) (rm : Reg) (s : State) : Result :=
  dataProcessing .orr c sf rn rd (.immShift amt k rm) s

/-- ORR, data processing, register shifted by register (41_arm_data_processing.md R225). -/
def execOrrRegShift (c : Cond) (sf : Bool) (rn rd rs : Reg) (k : ShiftKind) (rm : Reg) (s : State) : Result :=
  dataProcessing .orr c sf rn rd (.regShift rs k rm) s

/-- ORR, data processing, immediate (41_arm_data_processing.md R225). -/
def execOrrImm (c : Cond) (sf : Bool) (rn rd : Reg) (rot : BitVec 4) (imm : BitVec 8) (s : State) : Result :=
  dataProcessing .orr c sf rn rd (.imm rot imm) s

/-- MOV, data processing, register shifted by immediate (41_arm_data_processing.md R226). -/
def execMovImmShift (c : Cond) (sf : Bool) (rn rd : Reg) (amt : BitVec 5) (k : ShiftKind) (rm : Reg) (s : State) : Result :=
  dataProcessing .mov c sf rn rd (.immShift amt k rm) s

/-- MOV, data processing, register shifted by register (41_arm_data_processing.md R226). -/
def execMovRegShift (c : Cond) (sf : Bool) (rn rd rs : Reg) (k : ShiftKind) (rm : Reg) (s : State) : Result :=
  dataProcessing .mov c sf rn rd (.regShift rs k rm) s

/-- MOV, data processing, immediate (41_arm_data_processing.md R226). -/
def execMovImm (c : Cond) (sf : Bool) (rn rd : Reg) (rot : BitVec 4) (imm : BitVec 8) (s : State) : Result :=
  dataProcessing .mov c sf rn rd (.imm rot imm) s

/-- BIC, data processing, register shifted by immediate (41_arm_data_processing.md R227). -/
def execBicImmShift (c : Cond) (sf : Bool) (rn rd : Reg) (amt : BitVec 5) (k : ShiftKind) (rm : Reg) (s : State) : Result :=
  dataProcessing .bic c sf rn rd (.immShift amt k rm) s

/-- BIC, data processing, register shifted by register (41_arm_data_processing.md R227). -/
def execBicRegShift (c : Cond) (sf : Bool) (rn rd rs : Reg) (k : ShiftKind) (rm : Reg) (s : State) : Result :=
  dataProcessing .bic c sf rn rd (.regShift rs k rm) s

/-- BIC, data processing, immediate (41_arm_data_processing.md R227). -/
def execBicImm (c : Cond) (sf : Bool) (rn rd : Reg) (rot : BitVec 4) (imm : BitVec 8) (s : State) : Result :=
  dataProcessing .bic c sf rn rd (.imm rot imm) s

/-- MVN, data processing, register shifted by immediate (41_arm_data_processing.md R228). -/
def execMvnImmShift (c : Cond) (sf : Bool) (rn rd : Reg) (amt : BitVec 5) (k : ShiftKind) (rm : Reg) (s : State) : Result :=
  dataProcessing .mvn c sf rn rd (.immShift amt k rm) s

/-- MVN, data processing, register shifted by register (41_arm_data_processing.md R228). -/
def execMvnRegShift (c : Cond) (sf : Bool) (rn rd rs : Reg) (k : ShiftKind) (rm : Reg) (s : State) : Result :=
  dataProcessing .mvn c sf rn rd (.regShift rs k rm) s

/-- MVN, data processing, immediate (41_arm_data_processing.md R228). -/
def execMvnImm (c : Cond) (sf : Bool) (rn rd : Reg) (rot : BitVec 4) (imm : BitVec 8) (s : State) : Result :=
  dataProcessing .mvn c sf rn rd (.imm rot imm) s

end Sys2Proof.Machine
end

