-- ==== Sys2Proof/Machine/LoadStore.lean ====
section
/-! DEFINITION. The ARM single data transfers: words and bytes, their user-mode-access forms, halfwords and
signed bytes (43_arm_load_store.md R290..R304). -/

namespace Sys2Proof.Machine

open Sys2Proof

/-- The written-back base (43_arm_load_store.md R290). -/
def writeBase (s : State) (x : Indexing) (rn : Reg) (v : Word) : State :=
  if x.writeback then setReg s rn v else s

/-- A load: the base is written back first, the loaded value last, so it wins when Rn = Rd
(43_arm_load_store.md R291, R292). -/
def loadTransfer (k : LoadKind) (x : Indexing) (rn rd : Reg) (o : Offset) (s : State) : Result :=
  let a := transferAddr s x rn o
  let v := loadValue s k a
  let s1 := writeBase (noteLoad (charge s 1) false k a) x rn (offsetAddr s x rn o)
  if rd = 15 then .next (writePc s1 v) else .next (advance (setReg s1 rd v))

/-- A store: the value is read before the base is written back (43_arm_load_store.md R291, R293). -/
def storeTransfer (w : Width) (x : Indexing) (rn rd : Reg) (o : Offset) (s : State) : Result :=
  andThen (store s false w (transferAddr s x rn o) (operandReg s rd 12)) (fun s1 =>
    .next (advance (writeBase s1 x rn (offsetAddr s x rn o))))

/-- The restrictions on word and byte transfers (43_arm_load_store.md R291). -/
def wordByteRestricted (byte : Bool) (x : Indexing) (rn rd : Reg) (o : Offset) : Bool :=
  o.isPc || (x.writeback && rn == 15) || (byte && rd == 15) || (x.writeback && o.scaledBy rn)

/-- The restrictions on halfword and signed transfers (43_arm_load_store.md R300; the last one is `ls-pc` of
93_implementation_defined.md A.2). DEDUCED (log 21), safe: A.2 adds it to the list of R300. -/
def halfwordRestricted (x : Indexing) (rn rd : Reg) (o : Offset) : Bool :=
  (!x.p && x.w) || rd == 15 || o.isPc || (x.writeback && rn == 15) || (x.writeback && o.isReg rn)

/-- LDR, LDRB, LDRT, LDRBT (43_arm_load_store.md R292, R294, R296, R298). -/
def loadWordByte (byte : Bool) (c : Cond) (x : Indexing) (rn rd : Reg) (o : Offset) (s : State) : Result :=
  whenCond c s <|
  faultIf (wordByteRestricted byte x rn rd o) .lsPc <|
  faultIf (bankHazard s (rn :: rd :: o.regs)) .userBankHazard <|
  loadTransfer (if byte then .byte else .word) x rn rd o s

/-- STR, STRB, STRT, STRBT (43_arm_load_store.md R293, R295, R297, R299). -/
def storeWordByte (byte : Bool) (c : Cond) (x : Indexing) (rn rd : Reg) (o : Offset) (s : State) : Result :=
  whenCond c s <|
  faultIf (wordByteRestricted byte x rn rd o) .lsPc <|
  faultIf (bankHazard s (rn :: rd :: o.regs)) .userBankHazard <|
  storeTransfer (if byte then .byte else .word) x rn rd o s

/-- LDRH, LDRSB, LDRSH (43_arm_load_store.md R301, R303, R304); `sbz` is 0 in the immediate form, which has
no such field. -/
def loadHalfword (k : LoadKind) (c : Cond) (x : Indexing) (rn rd : Reg) (sbz : BitVec 4) (o : Offset)
    (s : State) : Result :=
  whenCond c s <|
  faultIf (sbz != 0) .sbzSbo <|
  faultIf (halfwordRestricted x rn rd o) .lsPc <|
  faultIf (bankHazard s (rn :: rd :: o.regs)) .userBankHazard <|
  loadTransfer k x rn rd o s

/-- STRH (43_arm_load_store.md R302). -/
def storeHalfword (c : Cond) (x : Indexing) (rn rd : Reg) (sbz : BitVec 4) (o : Offset) (s : State) : Result :=
  whenCond c s <|
  faultIf (sbz != 0) .sbzSbo <|
  faultIf (halfwordRestricted x rn rd o) .lsPc <|
  faultIf (bankHazard s (rn :: rd :: o.regs)) .userBankHazard <|
  storeTransfer .half x rn rd o s

/-! ## The meanings, one per row of the opcode table -/

/-- STR, single data transfer, immediate offset (43_arm_load_store.md R293). -/
def execStrImmPost (c : Cond) (u : Bool) (rn rd : Reg) (off : BitVec 12) (s : State) : Result :=
  storeWordByte false c ⟨false, u, false⟩ rn rd (.imm (off.setWidth 32)) s

/-- LDR, single data transfer, immediate offset (43_arm_load_store.md R292). -/
def execLdrImmPost (c : Cond) (u : Bool) (rn rd : Reg) (off : BitVec 12) (s : State) : Result :=
  loadWordByte false c ⟨false, u, false⟩ rn rd (.imm (off.setWidth 32)) s

/-- STRT, single data transfer, immediate offset (43_arm_load_store.md R297). -/
def execStrtImm (c : Cond) (u : Bool) (rn rd : Reg) (off : BitVec 12) (s : State) : Result :=
  storeWordByte false c ⟨false, u, true⟩ rn rd (.imm (off.setWidth 32)) s

/-- LDRT, single data transfer, immediate offset (43_arm_load_store.md R296). -/
def execLdrtImm (c : Cond) (u : Bool) (rn rd : Reg) (off : BitVec 12) (s : State) : Result :=
  loadWordByte false c ⟨false, u, true⟩ rn rd (.imm (off.setWidth 32)) s

/-- STRB, single data transfer, immediate offset (43_arm_load_store.md R295). -/
def execStrbImmPost (c : Cond) (u : Bool) (rn rd : Reg) (off : BitVec 12) (s : State) : Result :=
  storeWordByte true c ⟨false, u, false⟩ rn rd (.imm (off.setWidth 32)) s

/-- LDRB, single data transfer, immediate offset (43_arm_load_store.md R294). -/
def execLdrbImmPost (c : Cond) (u : Bool) (rn rd : Reg) (off : BitVec 12) (s : State) : Result :=
  loadWordByte true c ⟨false, u, false⟩ rn rd (.imm (off.setWidth 32)) s

/-- STRBT, single data transfer, immediate offset (43_arm_load_store.md R299). -/
def execStrbtImm (c : Cond) (u : Bool) (rn rd : Reg) (off : BitVec 12) (s : State) : Result :=
  storeWordByte true c ⟨false, u, true⟩ rn rd (.imm (off.setWidth 32)) s

/-- LDRBT, single data transfer, immediate offset (43_arm_load_store.md R298). -/
def execLdrbtImm (c : Cond) (u : Bool) (rn rd : Reg) (off : BitVec 12) (s : State) : Result :=
  loadWordByte true c ⟨false, u, true⟩ rn rd (.imm (off.setWidth 32)) s

/-- STR, single data transfer, immediate offset (43_arm_load_store.md R293). -/
def execStrImmPre (c : Cond) (u w : Bool) (rn rd : Reg) (off : BitVec 12) (s : State) : Result :=
  storeWordByte false c ⟨true, u, w⟩ rn rd (.imm (off.setWidth 32)) s

/-- LDR, single data transfer, immediate offset (43_arm_load_store.md R292). -/
def execLdrImmPre (c : Cond) (u w : Bool) (rn rd : Reg) (off : BitVec 12) (s : State) : Result :=
  loadWordByte false c ⟨true, u, w⟩ rn rd (.imm (off.setWidth 32)) s

/-- STRB, single data transfer, immediate offset (43_arm_load_store.md R295). -/
def execStrbImmPre (c : Cond) (u w : Bool) (rn rd : Reg) (off : BitVec 12) (s : State) : Result :=
  storeWordByte true c ⟨true, u, w⟩ rn rd (.imm (off.setWidth 32)) s

/-- LDRB, single data transfer, immediate offset (43_arm_load_store.md R294). -/
def execLdrbImmPre (c : Cond) (u w : Bool) (rn rd : Reg) (off : BitVec 12) (s : State) : Result :=
  loadWordByte true c ⟨true, u, w⟩ rn rd (.imm (off.setWidth 32)) s

/-- STR, single data transfer, register offset (43_arm_load_store.md R293). -/
def execStrRegPost (c : Cond) (u : Bool) (rn rd : Reg) (amt : BitVec 5) (k : ShiftKind) (rm : Reg) (s : State) : Result :=
  storeWordByte false c ⟨false, u, false⟩ rn rd (.scaled amt k rm) s

/-- LDR, single data transfer, register offset (43_arm_load_store.md R292). -/
def execLdrRegPost (c : Cond) (u : Bool) (rn rd : Reg) (amt : BitVec 5) (k : ShiftKind) (rm : Reg) (s : State) : Result :=
  loadWordByte false c ⟨false, u, false⟩ rn rd (.scaled amt k rm) s

/-- STRT, single data transfer, register offset (43_arm_load_store.md R297). -/
def execStrtReg (c : Cond) (u : Bool) (rn rd : Reg) (amt : BitVec 5) (k : ShiftKind) (rm : Reg) (s : State) : Result :=
  storeWordByte false c ⟨false, u, true⟩ rn rd (.scaled amt k rm) s

/-- LDRT, single data transfer, register offset (43_arm_load_store.md R296). -/
def execLdrtReg (c : Cond) (u : Bool) (rn rd : Reg) (amt : BitVec 5) (k : ShiftKind) (rm : Reg) (s : State) : Result :=
  loadWordByte false c ⟨false, u, true⟩ rn rd (.scaled amt k rm) s

/-- STRB, single data transfer, register offset (43_arm_load_store.md R295). -/
def execStrbRegPost (c : Cond) (u : Bool) (rn rd : Reg) (amt : BitVec 5) (k : ShiftKind) (rm : Reg) (s : State) : Result :=
  storeWordByte true c ⟨false, u, false⟩ rn rd (.scaled amt k rm) s

/-- LDRB, single data transfer, register offset (43_arm_load_store.md R294). -/
def execLdrbRegPost (c : Cond) (u : Bool) (rn rd : Reg) (amt : BitVec 5) (k : ShiftKind) (rm : Reg) (s : State) : Result :=
  loadWordByte true c ⟨false, u, false⟩ rn rd (.scaled amt k rm) s

/-- STRBT, single data transfer, register offset (43_arm_load_store.md R299). -/
def execStrbtReg (c : Cond) (u : Bool) (rn rd : Reg) (amt : BitVec 5) (k : ShiftKind) (rm : Reg) (s : State) : Result :=
  storeWordByte true c ⟨false, u, true⟩ rn rd (.scaled amt k rm) s

/-- LDRBT, single data transfer, register offset (43_arm_load_store.md R298). -/
def execLdrbtReg (c : Cond) (u : Bool) (rn rd : Reg) (amt : BitVec 5) (k : ShiftKind) (rm : Reg) (s : State) : Result :=
  loadWordByte true c ⟨false, u, true⟩ rn rd (.scaled amt k rm) s

/-- STR, single data transfer, register offset (43_arm_load_store.md R293). -/
def execStrRegPre (c : Cond) (u w : Bool) (rn rd : Reg) (amt : BitVec 5) (k : ShiftKind) (rm : Reg) (s : State) : Result :=
  storeWordByte false c ⟨true, u, w⟩ rn rd (.scaled amt k rm) s

/-- LDR, single data transfer, register offset (43_arm_load_store.md R292). -/
def execLdrRegPre (c : Cond) (u w : Bool) (rn rd : Reg) (amt : BitVec 5) (k : ShiftKind) (rm : Reg) (s : State) : Result :=
  loadWordByte false c ⟨true, u, w⟩ rn rd (.scaled amt k rm) s

/-- STRB, single data transfer, register offset (43_arm_load_store.md R295). -/
def execStrbRegPre (c : Cond) (u w : Bool) (rn rd : Reg) (amt : BitVec 5) (k : ShiftKind) (rm : Reg) (s : State) : Result :=
  storeWordByte true c ⟨true, u, w⟩ rn rd (.scaled amt k rm) s

/-- LDRB, single data transfer, register offset (43_arm_load_store.md R294). -/
def execLdrbRegPre (c : Cond) (u w : Bool) (rn rd : Reg) (amt : BitVec 5) (k : ShiftKind) (rm : Reg) (s : State) : Result :=
  loadWordByte true c ⟨true, u, w⟩ rn rd (.scaled amt k rm) s

/-- STRH, halfword transfer, register offset (43_arm_load_store.md R302). -/
def execStrhReg (c : Cond) (p u w : Bool) (rn rd : Reg) (sbz : BitVec 4) (rm : Reg) (s : State) : Result :=
  storeHalfword c ⟨p, u, w⟩ rn rd sbz (.reg rm) s

/-- LDRH, halfword transfer, register offset (43_arm_load_store.md R301). -/
def execLdrhReg (c : Cond) (p u w : Bool) (rn rd : Reg) (sbz : BitVec 4) (rm : Reg) (s : State) : Result :=
  loadHalfword .half c ⟨p, u, w⟩ rn rd sbz (.reg rm) s

/-- STRH, halfword transfer, immediate offset (43_arm_load_store.md R302). -/
def execStrhImm (c : Cond) (p u w : Bool) (rn rd : Reg) (immHi immLo : BitVec 4) (s : State) : Result :=
  storeHalfword c ⟨p, u, w⟩ rn rd 0 (.imm ((immHi ++ immLo).setWidth 32)) s

/-- LDRH, halfword transfer, immediate offset (43_arm_load_store.md R301). -/
def execLdrhImm (c : Cond) (p u w : Bool) (rn rd : Reg) (immHi immLo : BitVec 4) (s : State) : Result :=
  loadHalfword .half c ⟨p, u, w⟩ rn rd 0 (.imm ((immHi ++ immLo).setWidth 32)) s

/-- LDRSB, halfword transfer, register offset (43_arm_load_store.md R303). -/
def execLdrsbReg (c : Cond) (p u w : Bool) (rn rd : Reg) (sbz : BitVec 4) (rm : Reg) (s : State) : Result :=
  loadHalfword .signedByte c ⟨p, u, w⟩ rn rd sbz (.reg rm) s

/-- LDRSH, halfword transfer, register offset (43_arm_load_store.md R304). -/
def execLdrshReg (c : Cond) (p u w : Bool) (rn rd : Reg) (sbz : BitVec 4) (rm : Reg) (s : State) : Result :=
  loadHalfword .signedHalf c ⟨p, u, w⟩ rn rd sbz (.reg rm) s

/-- LDRSB, halfword transfer, immediate offset (43_arm_load_store.md R303). -/
def execLdrsbImm (c : Cond) (p u w : Bool) (rn rd : Reg) (immHi immLo : BitVec 4) (s : State) : Result :=
  loadHalfword .signedByte c ⟨p, u, w⟩ rn rd 0 (.imm ((immHi ++ immLo).setWidth 32)) s

/-- LDRSH, halfword transfer, immediate offset (43_arm_load_store.md R304). -/
def execLdrshImm (c : Cond) (p u w : Bool) (rn rd : Reg) (immHi immLo : BitVec 4) (s : State) : Result :=
  loadHalfword .signedHalf c ⟨p, u, w⟩ rn rd 0 (.imm ((immHi ++ immLo).setWidth 32)) s

end Sys2Proof.Machine
end

