-- ==== Sys2Proof/Machine/Multiply.lean ====
section
/-! DEFINITION. The ARM multiplies (42_arm_psr_multiply_swap.md R253..R259). -/

namespace Sys2Proof.Machine

open Sys2Proof

/-- Whether s[31:n] is all zeros, or, where `ones` counts, all ones (70_reset_and_hazards.md R552). -/
def topUniform (ones : Bool) (v : Word) (n : Nat) : Bool :=
  v >>> n == 0 || (ones && v.sshiftRight n == 0xFFFFFFFF)

/-- The multiply cycles m of the multiplier (70_reset_and_hazards.md R552). -/
def multiplyCycles (ones : Bool) (v : Word) : Nat :=
  if topUniform ones v 8 then 1 else if topUniform ones v 16 then 2 else if topUniform ones v 24 then 3 else 4

/-- The product of MUL and MLA (42_arm_psr_multiply_swap.md R254, R255), modulo 2^32. -/
def product (acc : Bool) (rn rs rm : Reg) (s : State) : Word :=
  readReg s rm * readReg s rs + (if acc then readReg s rn else 0)

/-- MUL and MLA (42_arm_psr_multiply_swap.md R253..R255). -/
def multiply (acc : Bool) (c : Cond) (sf : Bool) (rd rn rs rm : Reg) (s : State) : Result :=
  whenCond c s <|
  faultIf (!acc && rn != 0) .sbzSbo <|
  faultIf (rd == 15 || rs == 15 || rm == 15 || (acc && rn == 15)) .mulPc <|
  faultIf (rd == rm) .mulOverlap <|
  faultIf (bankHazard s ([rd, rs, rm] ++ if acc then [rn] else [])) .userBankHazard <|
  let r := product acc rn rs rm s
  let s1 := charge s (multiplyCycles true (readReg s rs) + acc.toNat)
  let s2 := if sf then { drew s1 with cpsr := mulFlags s.cpsr r (drawnBit s) } else s1
  .next (advance (setReg s2 rd r))

/-- A register as the 64-bit operand of a long multiply. -/
def widen (signed : Bool) (v : Word) : BitVec 64 := if signed then v.signExtend 64 else v.setWidth 64

/-- The 64-bit product (42_arm_psr_multiply_swap.md R256..R259), modulo 2^64. -/
def productLong (signed acc : Bool) (rdHi rdLo rs rm : Reg) (s : State) : BitVec 64 :=
  widen signed (readReg s rm) * widen signed (readReg s rs)
    + (if acc then readReg s rdHi ++ readReg s rdLo else 0)

/-- UMULL, UMLAL, SMULL, SMLAL (42_arm_psr_multiply_swap.md R253, R256..R259). -/
def multiplyLong (signed acc : Bool) (c : Cond) (sf : Bool) (rdHi rdLo rs rm : Reg) (s : State) : Result :=
  whenCond c s <|
  faultIf (rdHi == 15 || rdLo == 15 || rs == 15 || rm == 15) .mulPc <|
  faultIf (rdHi == rm || rdLo == rm || rdHi == rdLo) .mulOverlap <|
  faultIf (bankHazard s [rdHi, rdLo, rs, rm]) .userBankHazard <|
  let r := productLong signed acc rdHi rdLo rs rm s
  let s1 := charge s (multiplyCycles signed (readReg s rs) + 1 + acc.toNat)
  let s2 := if sf then
      { drew (drew s1) with cpsr := mulLongFlags s.cpsr r (drawnBit s) (drawnBit (drew s)) }
    else s1
  .next (advance (setReg (setReg s2 rdLo (r.extractLsb' 0 32)) rdHi (r.extractLsb' 32 32)))

/-! ## The meanings, one per row of the opcode table -/

/-- MUL, multiply (42_arm_psr_multiply_swap.md R254). -/
def execMul (c : Cond) (sf : Bool) (rd rn rs rm : Reg) (s : State) : Result :=
  multiply false c sf rd rn rs rm s

/-- MLA, multiply (42_arm_psr_multiply_swap.md R255). -/
def execMla (c : Cond) (sf : Bool) (rd rn rs rm : Reg) (s : State) : Result :=
  multiply true c sf rd rn rs rm s

/-- UMULL, multiply long (42_arm_psr_multiply_swap.md R256). -/
def execUmull (c : Cond) (sf : Bool) (rdHi rdLo rs rm : Reg) (s : State) : Result :=
  multiplyLong false false c sf rdHi rdLo rs rm s

/-- UMLAL, multiply long (42_arm_psr_multiply_swap.md R257). -/
def execUmlal (c : Cond) (sf : Bool) (rdHi rdLo rs rm : Reg) (s : State) : Result :=
  multiplyLong false true c sf rdHi rdLo rs rm s

/-- SMULL, multiply long (42_arm_psr_multiply_swap.md R258). -/
def execSmull (c : Cond) (sf : Bool) (rdHi rdLo rs rm : Reg) (s : State) : Result :=
  multiplyLong true false c sf rdHi rdLo rs rm s

/-- SMLAL, multiply long (42_arm_psr_multiply_swap.md R259). -/
def execSmlal (c : Cond) (sf : Bool) (rdHi rdLo rs rm : Reg) (s : State) : Result :=
  multiplyLong true true c sf rdHi rdLo rs rm s

end Sys2Proof.Machine
end

