-- ==== Sys2Proof/Machine/PsrTransfer.lean ====
section
/-! DEFINITION. MRS and MSR (42_arm_psr_multiply_swap.md R250..R252). -/

namespace Sys2Proof.Machine

open Sys2Proof

/-- MRS (42_arm_psr_multiply_swap.md R250). -/
def moveFromPsr (c : Cond) (r : Bool) (sbo : BitVec 4) (rd : Reg) (sbzHi sbzLo : BitVec 4) (s : State) : Result :=
  whenCond c s <|
  faultIf (sbo != 0b1111 || sbzHi != 0 || sbzLo != 0) .sbzSbo <|
  faultIf (rd == 15) .mrsRdPc <|
  faultIf (bankHazard s [rd]) .userBankHazard <|
  if r then
    match s.cpsr.mode.spsr with
    | none => .fault (.unpredictable .spsrInUserOrSystem)
    | some n => .next (advance (setReg s rd (readSpsr s n)))
  else .next (advance (setReg (drew s) rd (cpsrRead s)))

/-- The write of both MSR forms (42_arm_psr_multiply_swap.md R251, R252). -/
def moveToPsr (r : Bool) (fm : BitVec 4) (v : Word) (s : State) : Result :=
  andThen (if r then writeSpsr s v fm else writeCpsr s v fm) (fun s1 => .next (advance s1))

/-- MSR (register) (42_arm_psr_multiply_swap.md R251). -/
def moveToPsrReg (c : Cond) (r : Bool) (fm sbo sbz : BitVec 4) (rm : Reg) (s : State) : Result :=
  whenCond c s <|
  faultIf (sbo != 0b1111 || sbz != 0) .sbzSbo <|
  faultIf (rm == 15) .msrRmPc <|
  faultIf (bankHazard s [rm]) .userBankHazard <|
  moveToPsr r fm (readReg s rm) s

/-- MSR (immediate) (42_arm_psr_multiply_swap.md R252): the rotated immediate, its carry unused. -/
def moveToPsrImm (c : Cond) (r : Bool) (fm sbo rot : BitVec 4) (imm : BitVec 8) (s : State) : Result :=
  whenCond c s <|
  faultIf (sbo != 0b1111) .sbzSbo <|
  moveToPsr r fm (rotatedImm rot imm s.cpsr.c).1 s

/-! ## The meanings, one per row of the opcode table -/

/-- MRS, PSR transfer (42_arm_psr_multiply_swap.md R250). -/
def execMrs (c : Cond) (r : Bool) (sbo : BitVec 4) (rd : Reg) (sbzHi sbzLo : BitVec 4) (s : State) : Result :=
  moveFromPsr c r sbo rd sbzHi sbzLo s

/-- MSR, PSR transfer, register (42_arm_psr_multiply_swap.md R251). -/
def execMsrReg (c : Cond) (r : Bool) (fm sbo sbz : BitVec 4) (rm : Reg) (s : State) : Result :=
  moveToPsrReg c r fm sbo sbz rm s

/-- MSR, PSR transfer, immediate (42_arm_psr_multiply_swap.md R252). -/
def execMsrImm (c : Cond) (r : Bool) (fm sbo rot : BitVec 4) (imm : BitVec 8) (s : State) : Result :=
  moveToPsrImm c r fm sbo rot imm s

end Sys2Proof.Machine
end

