-- ==== Sys2Proof/Machine/Swap.lean ====
section
/-! DEFINITION. SWP and SWPB (42_arm_psr_multiply_swap.md R260, R261). -/

namespace Sys2Proof.Machine

open Sys2Proof

/-- SWP and SWPB (42_arm_psr_multiply_swap.md R260, R261): one read, then one write of the same location
(20_memory.md R97), both non-sequential (70_reset_and_hazards.md R550). -/
def swap (byte : Bool) (c : Cond) (rn rd : Reg) (sbz : BitVec 4) (rm : Reg) (s : State) : Result :=
  whenCond c s <|
  faultIf (sbz != 0) .sbzSbo <|
  faultIf (rd == 15 || rm == 15 || rn == 15) .swpPc <|
  faultIf (rn == rm || rn == rd) .swpOverlap <|
  faultIf (bankHazard s [rn, rd, rm]) .userBankHazard <|
  let k : LoadKind := if byte then .byte else .word
  let w : Width := if byte then .byte else .word
  let a := readReg s rn
  andThen (store (noteLoad (charge s 1) false k a) false w a (readReg s rm)) (fun s1 =>
    .next (advance (setReg s1 rd (loadValue s k a))))

/-! ## The meanings, one per row of the opcode table -/

/-- SWP, swap (42_arm_psr_multiply_swap.md R260). -/
def execSwp (c : Cond) (rn rd : Reg) (sbz : BitVec 4) (rm : Reg) (s : State) : Result :=
  swap false c rn rd sbz rm s

/-- SWPB, swap (42_arm_psr_multiply_swap.md R261). -/
def execSwpb (c : Cond) (rn rd : Reg) (sbz : BitVec 4) (rm : Reg) (s : State) : Result :=
  swap true c rn rd sbz rm s

end Sys2Proof.Machine
end

