-- ==== Sys2Proof/Machine/ThumbAlu.lean ====
section
/-! DEFINITION. Thumb formats 1 to 5 (45_thumb_alu.md R370..R401). Registers R0..R7 are the same in every
bank, so the instructions of formats 1 to 4 cannot meet the user-bank hazard. -/

namespace Sys2Proof.Machine

open Sys2Proof

/-- Write a low register and CPSR's flags, and advance (45_thumb_alu.md R370). -/
def thumbResult (rd : LowReg) (r : Word) (p : Psr) (s : State) : Result :=
  .next (advance (setReg { s with cpsr := p } (lowReg rd) r))

/-- Write CPSR's flags only, and advance. -/
def thumbFlags (p : Psr) (s : State) : Result := .next (advance { s with cpsr := p })

/-- A result with the logical flags, C as given, V unchanged (45_thumb_alu.md R370). -/
def thumbLogical (rd : LowReg) (r : Word) (c : Bool) (s : State) : Result :=
  thumbResult rd r (logicalFlags s.cpsr r c) s

/-- A sum with all four flags (45_thumb_alu.md R370). -/
def thumbArith (rd : LowReg) (a : Sum) (s : State) : Result :=
  thumbResult rd a.result (arithFlags s.cpsr a) s

/-- Format 1 (45_thumb_alu.md R371..R373). -/
def thumbShiftImm (k : ShiftKind) (off : BitVec 5) (rs rd : LowReg) (s : State) : Result :=
  thumbLogical rd (shiftByImm k (readReg s (lowReg rs)) off s.cpsr.c).1
    (shiftByImm k (readReg s (lowReg rs)) off s.cpsr.c).2 s

/-- The shifts of format 4 (45_thumb_alu.md R384..R386, R389), with the internal cycle of a
register-specified shift (70_reset_and_hazards.md R551). -/
def thumbShiftReg (k : ShiftKind) (rs rd : LowReg) (s : State) : Result :=
  let out := shiftByReg k (readReg s (lowReg rd)) (shiftAmount (readReg s (lowReg rs))) s.cpsr.c
  thumbLogical rd out.1 out.2 (charge s 1)

/-- MUL (45_thumb_alu.md R395); its multiplier is Rd before the write (70_reset_and_hazards.md R552). -/
def thumbMultiply (rs rd : LowReg) (s : State) : Result :=
  faultIf (rd == rs) .mulOverlap <|
  let r := readReg s (lowReg rs) * readReg s (lowReg rd)
  thumbResult rd r (mulFlags s.cpsr r (drawnBit s))
    (drew (charge s (multiplyCycles true (readReg s (lowReg rd)))))

/-- `op(r)` of format 5: R15 reads instr_addr + 4 (45_thumb_alu.md section 6, 10_state.md R38). -/
def highOperand (s : State) (r : Reg) : Word := operandReg s r 4

/-- Write the destination of a format 5 ADD or MOV: R15 is a jump that stays in Thumb state
(45_thumb_alu.md R398, R400). -/
def writeHigh (rd : Reg) (v : Word) (s : State) : Result :=
  if rd = 15 then .next (writePc s v) else .next (advance (setReg s rd v))

/-- ADD (high registers) (45_thumb_alu.md R398). -/
def thumbAddHigh (h1 h2 : Bool) (rs rd : LowReg) (s : State) : Result :=
  faultIf (!h1 && !h2) .thumbHireg <|
  faultIf (bankHazard s [highReg h1 rd, highReg h2 rs]) .userBankHazard <|
  writeHigh (highReg h1 rd) (highOperand s (highReg h1 rd) + highOperand s (highReg h2 rs)) s

/-- CMP (high registers) (45_thumb_alu.md R399). -/
def thumbCmpHigh (h1 h2 : Bool) (rs rd : LowReg) (s : State) : Result :=
  faultIf (!h1 && !h2) .thumbHireg <|
  faultIf (bankHazard s [highReg h1 rd, highReg h2 rs]) .userBankHazard <|
  thumbFlags (arithFlags s.cpsr
    (addWithCarry (highOperand s (highReg h1 rd)) (~~~highOperand s (highReg h2 rs)) true)) s

/-- MOV (high registers) (45_thumb_alu.md R400). -/
def thumbMovHigh (h1 h2 : Bool) (rs rd : LowReg) (s : State) : Result :=
  faultIf (!h1 && !h2) .thumbHireg <|
  faultIf (bankHazard s [highReg h1 rd, highReg h2 rs]) .userBankHazard <|
  writeHigh (highReg h1 rd) (highOperand s (highReg h2 rs)) s

/-- BX (Thumb) (45_thumb_alu.md R401; 30_encoding.md R160). -/
def thumbBranchExchange (h1 h2 : Bool) (rs rd : LowReg) (s : State) : Result :=
  faultIf (h1 || rd != 0) .thumbHireg <|
  faultIf (bankHazard s [highReg h2 rs]) .userBankHazard <|
  .next (exchange s (highOperand s (highReg h2 rs)))

/-! ## The meanings, one per row of the opcode table -/

/-- LSL, Thumb format 1, move shifted register (45_thumb_alu.md R371). -/
def execTLslImm (off : BitVec 5) (rs rd : LowReg) (s : State) : Result :=
  thumbShiftImm .lsl off rs rd s

/-- LSR, Thumb format 1, move shifted register (45_thumb_alu.md R372). -/
def execTLsrImm (off : BitVec 5) (rs rd : LowReg) (s : State) : Result :=
  thumbShiftImm .lsr off rs rd s

/-- ASR, Thumb format 1, move shifted register (45_thumb_alu.md R373). -/
def execTAsrImm (off : BitVec 5) (rs rd : LowReg) (s : State) : Result :=
  thumbShiftImm .asr off rs rd s

/-- ADD, Thumb format 2, add/subtract register (45_thumb_alu.md R374). -/
def execTAddReg (rn rs rd : LowReg) (s : State) : Result :=
  thumbArith rd (addWithCarry (readReg s (lowReg rs)) (readReg s (lowReg rn)) false) s

/-- SUB, Thumb format 2, add/subtract register (45_thumb_alu.md R375). -/
def execTSubReg (rn rs rd : LowReg) (s : State) : Result :=
  thumbArith rd (addWithCarry (readReg s (lowReg rs)) (~~~readReg s (lowReg rn)) true) s

/-- ADD, Thumb format 2, add/subtract 3-bit immediate (45_thumb_alu.md R376). -/
def execTAddImm3 (imm : BitVec 3) (rs rd : LowReg) (s : State) : Result :=
  thumbArith rd (addWithCarry (readReg s (lowReg rs)) (imm.setWidth 32) false) s

/-- SUB, Thumb format 2, add/subtract 3-bit immediate (45_thumb_alu.md R377). -/
def execTSubImm3 (imm : BitVec 3) (rs rd : LowReg) (s : State) : Result :=
  thumbArith rd (addWithCarry (readReg s (lowReg rs)) (~~~(imm.setWidth 32 : Word)) true) s

/-- MOV, Thumb format 3, immediate (45_thumb_alu.md R378). -/
def execTMovImm (rd : LowReg) (imm : BitVec 8) (s : State) : Result :=
  thumbLogical rd (imm.setWidth 32) s.cpsr.c s

/-- CMP, Thumb format 3, immediate (45_thumb_alu.md R379). -/
def execTCmpImm (rd : LowReg) (imm : BitVec 8) (s : State) : Result :=
  thumbFlags (arithFlags s.cpsr (addWithCarry (readReg s (lowReg rd)) (~~~(imm.setWidth 32 : Word)) true)) s

/-- ADD, Thumb format 3, immediate (45_thumb_alu.md R380). -/
def execTAddImm8 (rd : LowReg) (imm : BitVec 8) (s : State) : Result :=
  thumbArith rd (addWithCarry (readReg s (lowReg rd)) (imm.setWidth 32) false) s

/-- SUB, Thumb format 3, immediate (45_thumb_alu.md R381). -/
def execTSubImm8 (rd : LowReg) (imm : BitVec 8) (s : State) : Result :=
  thumbArith rd (addWithCarry (readReg s (lowReg rd)) (~~~(imm.setWidth 32 : Word)) true) s

/-- AND, Thumb format 4, ALU operation (45_thumb_alu.md R382). -/
def execTAnd (rs rd : LowReg) (s : State) : Result :=
  thumbLogical rd (readReg s (lowReg rd) &&& readReg s (lowReg rs)) s.cpsr.c s

/-- EOR, Thumb format 4, ALU operation (45_thumb_alu.md R383). -/
def execTEor (rs rd : LowReg) (s : State) : Result :=
  thumbLogical rd (readReg s (lowReg rd) ^^^ readReg s (lowReg rs)) s.cpsr.c s

/-- LSL, Thumb format 4, ALU operation (45_thumb_alu.md R384). -/
def execTLslReg (rs rd : LowReg) (s : State) : Result :=
  thumbShiftReg .lsl rs rd s

/-- LSR, Thumb format 4, ALU operation (45_thumb_alu.md R385). -/
def execTLsrReg (rs rd : LowReg) (s : State) : Result :=
  thumbShiftReg .lsr rs rd s

/-- ASR, Thumb format 4, ALU operation (45_thumb_alu.md R386). -/
def execTAsrReg (rs rd : LowReg) (s : State) : Result :=
  thumbShiftReg .asr rs rd s

/-- ADC, Thumb format 4, ALU operation (45_thumb_alu.md R387). -/
def execTAdc (rs rd : LowReg) (s : State) : Result :=
  thumbArith rd (addWithCarry (readReg s (lowReg rd)) (readReg s (lowReg rs)) s.cpsr.c) s

/-- SBC, Thumb format 4, ALU operation (45_thumb_alu.md R388). -/
def execTSbc (rs rd : LowReg) (s : State) : Result :=
  thumbArith rd (addWithCarry (readReg s (lowReg rd)) (~~~readReg s (lowReg rs)) s.cpsr.c) s

/-- ROR, Thumb format 4, ALU operation (45_thumb_alu.md R389). -/
def execTRorReg (rs rd : LowReg) (s : State) : Result :=
  thumbShiftReg .ror rs rd s

/-- TST, Thumb format 4, ALU operation (45_thumb_alu.md R390). -/
def execTTst (rs rd : LowReg) (s : State) : Result :=
  thumbFlags (logicalFlags s.cpsr (readReg s (lowReg rd) &&& readReg s (lowReg rs)) s.cpsr.c) s

/-- NEG, Thumb format 4, ALU operation (45_thumb_alu.md R391). -/
def execTNeg (rs rd : LowReg) (s : State) : Result :=
  thumbArith rd (addWithCarry 0 (~~~readReg s (lowReg rs)) true) s

/-- CMP, Thumb format 4, ALU operation (45_thumb_alu.md R392). -/
def execTCmpReg (rs rd : LowReg) (s : State) : Result :=
  thumbFlags (arithFlags s.cpsr (addWithCarry (readReg s (lowReg rd)) (~~~readReg s (lowReg rs)) true)) s

/-- CMN, Thumb format 4, ALU operation (45_thumb_alu.md R393). -/
def execTCmn (rs rd : LowReg) (s : State) : Result :=
  thumbFlags (arithFlags s.cpsr (addWithCarry (readReg s (lowReg rd)) (readReg s (lowReg rs)) false)) s

/-- ORR, Thumb format 4, ALU operation (45_thumb_alu.md R394). -/
def execTOrr (rs rd : LowReg) (s : State) : Result :=
  thumbLogical rd (readReg s (lowReg rd) ||| readReg s (lowReg rs)) s.cpsr.c s

/-- MUL, Thumb format 4, ALU operation (45_thumb_alu.md R395). -/
def execTMul (rs rd : LowReg) (s : State) : Result :=
  thumbMultiply rs rd s

/-- BIC, Thumb format 4, ALU operation (45_thumb_alu.md R396). -/
def execTBic (rs rd : LowReg) (s : State) : Result :=
  thumbLogical rd (readReg s (lowReg rd) &&& ~~~readReg s (lowReg rs)) s.cpsr.c s

/-- MVN, Thumb format 4, ALU operation (45_thumb_alu.md R397). -/
def execTMvn (rs rd : LowReg) (s : State) : Result :=
  thumbLogical rd (~~~readReg s (lowReg rs)) s.cpsr.c s

/-- ADD, Thumb format 5, high register / branch exchange (45_thumb_alu.md R398). -/
def execTAddHi (h1 h2 : Bool) (rs rd : LowReg) (s : State) : Result :=
  thumbAddHigh h1 h2 rs rd s

/-- CMP, Thumb format 5, high register / branch exchange (45_thumb_alu.md R399). -/
def execTCmpHi (h1 h2 : Bool) (rs rd : LowReg) (s : State) : Result :=
  thumbCmpHigh h1 h2 rs rd s

/-- MOV, Thumb format 5, high register / branch exchange (45_thumb_alu.md R400). -/
def execTMovHi (h1 h2 : Bool) (rs rd : LowReg) (s : State) : Result :=
  thumbMovHigh h1 h2 rs rd s

/-- BX, Thumb format 5, high register / branch exchange (45_thumb_alu.md R401). -/
def execTBx (h1 h2 : Bool) (rs rd : LowReg) (s : State) : Result :=
  thumbBranchExchange h1 h2 rs rd s

end Sys2Proof.Machine
end

