-- ==== Sys2Proof/Machine/ThumbBranch.lean ====
section
/-! DEFINITION. Thumb formats 16 to 19 and the Thumb undefined space (47_thumb_branch.md R470..R475). -/

namespace Sys2Proof.Machine

open Sys2Proof

/-- The target of a Thumb branch: instr_addr + 4 plus the halfword offset (47_thumb_branch.md R470, R472). -/
def thumbTarget {n : Nat} (s : State) (off : BitVec n) : Word := pcRead s 4 + (off.signExtend 32 <<< 1)

/-- B<cond> (47_thumb_branch.md R470): a failed condition only advances the PC. -/
def thumbBranchCond (c : Cond) (off : BitVec 8) (s : State) : Result :=
  if condHolds c s.cpsr then .next (writePc s (thumbTarget s off)) else .next (advance s)

/-- BL, first half (47_thumb_branch.md R473): the high part of the offset into LR. -/
def thumbLinkFirst (off : BitVec 11) (s : State) : Result :=
  faultIf (bankHazard s [14]) .userBankHazard <|
  .next (advance (setReg s 14 (pcRead s 4 + (off.signExtend 32 <<< 12))))

/-- BL, second half (47_thumb_branch.md R474): branch to LR plus the low part, and LR the return address with
bit 0 set. -/
def thumbLinkSecond (off : BitVec 11) (s : State) : Result :=
  faultIf (bankHazard s [14]) .userBankHazard <|
  .next (writePc (setReg s 14 ((s.pc + 2) ||| 1)) (readReg s 14 + ((off.setWidth 32 : Word) <<< 1)))

/-! ## The meanings, one per row of the opcode table -/

/-- B<cond>, Thumb format 16, conditional branch (47_thumb_branch.md R470). -/
def execTBcondD0 (cb : BitVec 3) (off : BitVec 8) (s : State) : Result :=
  thumbBranchCond (condOfBits (0b0#1 ++ cb)) off s

/-- B<cond>, Thumb format 16, conditional branch (47_thumb_branch.md R470). -/
def execTBcondD8 (cb : BitVec 2) (off : BitVec 8) (s : State) : Result :=
  thumbBranchCond (condOfBits (0b10#2 ++ cb)) off s

/-- B<cond>, Thumb format 16, conditional branch (47_thumb_branch.md R470). -/
def execTBcondDC (cb : BitVec 1) (off : BitVec 8) (s : State) : Result :=
  thumbBranchCond (condOfBits (0b110#3 ++ cb)) off s

/-- SWI, Thumb format 17, software interrupt (47_thumb_branch.md R471). -/
def execTSwi (_val : BitVec 8) (s : State) : Result :=
  raiseSoftwareInterrupt s

/-- B, Thumb format 18, unconditional branch (47_thumb_branch.md R472). -/
def execTB (off : BitVec 11) (s : State) : Result :=
  .next (writePc s (thumbTarget s off))

/-- BL (first half), Thumb format 19, long branch with link (47_thumb_branch.md R473). -/
def execTBlFirst (off : BitVec 11) (s : State) : Result :=
  thumbLinkFirst off s

/-- BL (second half), Thumb format 19, long branch with link (47_thumb_branch.md R474). -/
def execTBlSecond (off : BitVec 11) (s : State) : Result :=
  thumbLinkSecond off s

/-- UNDEFINED(thumb 0xB1-0xBF space), Thumb undefined (47_thumb_branch.md R475). -/
def execTUndefB1 (_low : BitVec 8) (s : State) : Result :=
  raiseUndefined s

/-- UNDEFINED(thumb 0xB1-0xBF space), Thumb undefined (47_thumb_branch.md R475). -/
def execTUndefB8 (_low : BitVec 9) (s : State) : Result :=
  raiseUndefined s

/-- UNDEFINED(thumb 0xB1-0xBF space), Thumb undefined (47_thumb_branch.md R475). -/
def execTUndefB2 (_b11 _b10 : Bool) (_low : BitVec 9) (s : State) : Result :=
  raiseUndefined s

/-- UNDEFINED(thumb cond 1110), Thumb undefined (47_thumb_branch.md R475). -/
def execTUndefDE (_low : BitVec 8) (s : State) : Result :=
  raiseUndefined s

/-- UNDEFINED(thumb 0xE8-0xEF, BLX suffix space), Thumb undefined (47_thumb_branch.md R475). -/
def execTUndefE8 (_low : BitVec 11) (s : State) : Result :=
  raiseUndefined s

end Sys2Proof.Machine
end

