-- ==== Sys2Proof/Machine/ThumbLoadStore.lean ====
section
/-! DEFINITION. Thumb formats 6 to 15 (46_thumb_load_store.md R420..R446). -/

namespace Sys2Proof.Machine

open Sys2Proof

/-- A Thumb load of a low register (46_thumb_load_store.md R420). -/
def thumbLoad (k : LoadKind) (a : Word) (rd : LowReg) (s : State) : Result :=
  .next (advance (setReg (noteLoad (charge s 1) false k a) (lowReg rd) (loadValue s k a)))

/-- A Thumb store of a low register (46_thumb_load_store.md R420). -/
def thumbStore (w : Width) (a : Word) (rd : LowReg) (s : State) : Result :=
  andThen (store s false w a (readReg s (lowReg rd))) (fun s1 => .next (advance s1))

/-- An instruction that accesses x[13] (10_state.md R36, R45 (f)). -/
def onStack (s : State) (k : Result) : Result := faultIf (bankHazard s [13]) .userBankHazard k

/-- Format 12: an address into a low register, no flags (46_thumb_load_store.md R438, R439). -/
def thumbAddress (a : Word) (rd : LowReg) (s : State) : Result := .next (advance (setReg s (lowReg rd) a))

/-- Format 13: a new stack pointer (46_thumb_load_store.md R440, R441). -/
def thumbStackMove (v : Word) (s : State) : Result := .next (advance (setReg s 13 v))

/-- The register list of PUSH (46_thumb_load_store.md R442): R adds LR. -/
def pushList (r : Bool) (list : BitVec 8) : BitVec 16 := list.setWidth 16 ||| (if r then 0x4000 else 0)

/-- The register list of POP (46_thumb_load_store.md R443): R adds PC. -/
def popList (r : Bool) (list : BitVec 8) : BitVec 16 := list.setWidth 16 ||| (if r then 0x8000 else 0)

/-- PUSH (46_thumb_load_store.md R442, R446): as a decrement-before store on SP; R15 stores
instr_addr + 6. -/
def thumbPush (r : Bool) (list : BitVec 8) (s : State) : Result :=
  let regs := transferredRegs (pushList r list)
  let newBase := blockNewBase false (readReg s 13) (pushList r list)
  faultIf (bankHazard s (13 :: regs)) .userBankHazard <|
  blockStore s true 13 newBase newBase (storedWords s 6 true 13 newBase regs)

/-- POP (46_thumb_load_store.md R443, R446): as an increment-after load on SP; Thumb state is kept. -/
def thumbPop (r : Bool) (list : BitVec 8) (s : State) : Result :=
  let regs := transferredRegs (popList r list)
  let base := readReg s 13
  faultIf (bankHazard s (13 :: regs)) .userBankHazard <|
  blockLoad false s true 13 base (blockNewBase true base (popList r list)) regs

/-- STMIA (46_thumb_load_store.md R444, R446): R15 stores instr_addr + 6. -/
def thumbStoreMultiple (rb : LowReg) (list : BitVec 8) (s : State) : Result :=
  let regs := transferredRegs (list.setWidth 16)
  let base := readReg s (lowReg rb)
  let newBase := blockNewBase true base (list.setWidth 16)
  blockStore s true (lowReg rb) base newBase (storedWords s 6 true (lowReg rb) newBase regs)

/-- LDMIA (46_thumb_load_store.md R445, R446). -/
def thumbLoadMultiple (rb : LowReg) (list : BitVec 8) (s : State) : Result :=
  let regs := transferredRegs (list.setWidth 16)
  let base := readReg s (lowReg rb)
  blockLoad false s true (lowReg rb) base (blockNewBase true base (list.setWidth 16)) regs

/-! ## The meanings, one per row of the opcode table -/

/-- LDR, Thumb format 6, PC-relative load (46_thumb_load_store.md R421). -/
def execTLdrPc (rd : LowReg) (off : BitVec 8) (s : State) : Result :=
  thumbLoad .word (literalBase s + scaledWord off) rd s

/-- STR, Thumb format 7, load/store register offset (46_thumb_load_store.md R422). -/
def execTStrReg (ro rb rd : LowReg) (s : State) : Result :=
  thumbStore .word (readReg s (lowReg rb) + readReg s (lowReg ro)) rd s

/-- STRB, Thumb format 7, load/store register offset (46_thumb_load_store.md R423). -/
def execTStrbReg (ro rb rd : LowReg) (s : State) : Result :=
  thumbStore .byte (readReg s (lowReg rb) + readReg s (lowReg ro)) rd s

/-- LDR, Thumb format 7, load/store register offset (46_thumb_load_store.md R424). -/
def execTLdrReg (ro rb rd : LowReg) (s : State) : Result :=
  thumbLoad .word (readReg s (lowReg rb) + readReg s (lowReg ro)) rd s

/-- LDRB, Thumb format 7, load/store register offset (46_thumb_load_store.md R425). -/
def execTLdrbReg (ro rb rd : LowReg) (s : State) : Result :=
  thumbLoad .byte (readReg s (lowReg rb) + readReg s (lowReg ro)) rd s

/-- STRH, Thumb format 8, load/store sign-extended byte/halfword (46_thumb_load_store.md R426). -/
def execTStrhReg (ro rb rd : LowReg) (s : State) : Result :=
  thumbStore .half (readReg s (lowReg rb) + readReg s (lowReg ro)) rd s

/-- LDRSB, Thumb format 8, load/store sign-extended byte/halfword (46_thumb_load_store.md R427). -/
def execTLdrsbReg (ro rb rd : LowReg) (s : State) : Result :=
  thumbLoad .signedByte (readReg s (lowReg rb) + readReg s (lowReg ro)) rd s

/-- LDRH, Thumb format 8, load/store sign-extended byte/halfword (46_thumb_load_store.md R428). -/
def execTLdrhReg (ro rb rd : LowReg) (s : State) : Result :=
  thumbLoad .half (readReg s (lowReg rb) + readReg s (lowReg ro)) rd s

/-- LDRSH, Thumb format 8, load/store sign-extended byte/halfword (46_thumb_load_store.md R429). -/
def execTLdrshReg (ro rb rd : LowReg) (s : State) : Result :=
  thumbLoad .signedHalf (readReg s (lowReg rb) + readReg s (lowReg ro)) rd s

/-- STR, Thumb format 9, load/store immediate offset (46_thumb_load_store.md R430). -/
def execTStrImm (off : BitVec 5) (rb rd : LowReg) (s : State) : Result :=
  thumbStore .word (readReg s (lowReg rb) + ((off.setWidth 32 : Word) <<< 2)) rd s

/-- LDR, Thumb format 9, load/store immediate offset (46_thumb_load_store.md R431). -/
def execTLdrImm (off : BitVec 5) (rb rd : LowReg) (s : State) : Result :=
  thumbLoad .word (readReg s (lowReg rb) + ((off.setWidth 32 : Word) <<< 2)) rd s

/-- STRB, Thumb format 9, load/store immediate offset (46_thumb_load_store.md R432). -/
def execTStrbImm (off : BitVec 5) (rb rd : LowReg) (s : State) : Result :=
  thumbStore .byte (readReg s (lowReg rb) + off.setWidth 32) rd s

/-- LDRB, Thumb format 9, load/store immediate offset (46_thumb_load_store.md R433). -/
def execTLdrbImm (off : BitVec 5) (rb rd : LowReg) (s : State) : Result :=
  thumbLoad .byte (readReg s (lowReg rb) + off.setWidth 32) rd s

/-- STRH, Thumb format 10, load/store halfword (46_thumb_load_store.md R434). -/
def execTStrhImm (off : BitVec 5) (rb rd : LowReg) (s : State) : Result :=
  thumbStore .half (readReg s (lowReg rb) + ((off.setWidth 32 : Word) <<< 1)) rd s

/-- LDRH, Thumb format 10, load/store halfword (46_thumb_load_store.md R435). -/
def execTLdrhImm (off : BitVec 5) (rb rd : LowReg) (s : State) : Result :=
  thumbLoad .half (readReg s (lowReg rb) + ((off.setWidth 32 : Word) <<< 1)) rd s

/-- STR, Thumb format 11, SP-relative load/store (46_thumb_load_store.md R436). -/
def execTStrSp (rd : LowReg) (off : BitVec 8) (s : State) : Result :=
  onStack s (thumbStore .word (readReg s 13 + scaledWord off) rd s)

/-- LDR, Thumb format 11, SP-relative load/store (46_thumb_load_store.md R437). -/
def execTLdrSp (rd : LowReg) (off : BitVec 8) (s : State) : Result :=
  onStack s (thumbLoad .word (readReg s 13 + scaledWord off) rd s)

/-- ADD, Thumb format 12, load address from PC (46_thumb_load_store.md R438). -/
def execTAddPc (rd : LowReg) (off : BitVec 8) (s : State) : Result :=
  thumbAddress (literalBase s + scaledWord off) rd s

/-- ADD, Thumb format 12, load address from SP (46_thumb_load_store.md R439). -/
def execTAddSp (rd : LowReg) (off : BitVec 8) (s : State) : Result :=
  onStack s (thumbAddress (readReg s 13 + scaledWord off) rd s)

/-- ADD, Thumb format 13, add offset to SP (46_thumb_load_store.md R440). -/
def execTSpAdd (off : BitVec 7) (s : State) : Result :=
  onStack s (thumbStackMove (readReg s 13 + scaledWord off) s)

/-- SUB, Thumb format 13, add offset to SP (46_thumb_load_store.md R441). -/
def execTSpSub (off : BitVec 7) (s : State) : Result :=
  onStack s (thumbStackMove (readReg s 13 - scaledWord off) s)

/-- PUSH, Thumb format 14, push/pop (46_thumb_load_store.md R442). -/
def execTPush (r : Bool) (list : BitVec 8) (s : State) : Result :=
  thumbPush r list s

/-- POP, Thumb format 14, push/pop (46_thumb_load_store.md R443). -/
def execTPop (r : Bool) (list : BitVec 8) (s : State) : Result :=
  thumbPop r list s

/-- STMIA, Thumb format 15, multiple load/store (46_thumb_load_store.md R444). -/
def execTStmia (rb : LowReg) (list : BitVec 8) (s : State) : Result :=
  thumbStoreMultiple rb list s

/-- LDMIA, Thumb format 15, multiple load/store (46_thumb_load_store.md R445). -/
def execTLdmia (rb : LowReg) (list : BitVec 8) (s : State) : Result :=
  thumbLoadMultiple rb list s

end Sys2Proof.Machine
end

