-- ==== Sys2Proof/Machine/Undefined.lean ====
section
/-! DEFINITION. The coprocessor instructions and the ARM UNDEFINED spaces: each takes the
undefined-instruction trap when its condition passes, whatever its fields hold
(44_arm_branch_system.md R344..R348; 30_encoding.md R134, R138). -/

namespace Sys2Proof.Machine

open Sys2Proof

/-- The trap of an ARM word with no meaning here (44_arm_branch_system.md R344, R348). -/
def undefinedArm (c : Cond) (s : State) : Result := whenCond c s (raiseUndefined s)

/-! ## The meanings, one per row of the opcode table -/

/-- LDC, coprocessor data transfer (undefined) (44_arm_branch_system.md R344). -/
def execLdc (c : Cond) (_p _u _n _w : Bool) (_rn : Reg) (_crd _cp : BitVec 4) (_off : BitVec 8) (s : State) : Result :=
  undefinedArm c s

/-- STC, coprocessor data transfer (undefined) (44_arm_branch_system.md R344). -/
def execStc (c : Cond) (_p _u _n _w : Bool) (_rn : Reg) (_crd _cp : BitVec 4) (_off : BitVec 8) (s : State) : Result :=
  undefinedArm c s

/-- CDP, coprocessor data operation (undefined) (44_arm_branch_system.md R345). -/
def execCdp (c : Cond) (_op1 _crn _crd _cp : BitVec 4) (_op2 : BitVec 3) (_crm : BitVec 4) (s : State) : Result :=
  undefinedArm c s

/-- MCR, coprocessor register transfer (undefined) (44_arm_branch_system.md R346). -/
def execMcr (c : Cond) (_op1 : BitVec 3) (_crn : BitVec 4) (_rd : Reg) (_cp : BitVec 4) (_op2 : BitVec 3) (_crm : BitVec 4) (s : State) : Result :=
  undefinedArm c s

/-- MRC, coprocessor register transfer (undefined) (44_arm_branch_system.md R347). -/
def execMrc (c : Cond) (_op1 : BitVec 3) (_crn : BitVec 4) (_rd : Reg) (_cp : BitVec 4) (_op2 : BitVec 3) (_crm : BitVec 4) (s : State) : Result :=
  undefinedArm c s

/-- UNDEFINED(misc space), undefined (44_arm_branch_system.md R348). -/
def execUndefMisc01000020 (c : Cond) (_b22 _b21 : Bool) (_f16 _f12 _f8 _f0 : BitVec 4) (s : State) : Result :=
  undefinedArm c s

/-- UNDEFINED(misc space), undefined (44_arm_branch_system.md R348). -/
def execUndefMisc01000040 (c : Cond) (_b22 _b21 : Bool) (_f16 _f12 _f8 : BitVec 4) (_b5 : Bool) (_f0 : BitVec 4) (s : State) : Result :=
  undefinedArm c s

/-- UNDEFINED(misc space), undefined (44_arm_branch_system.md R348). -/
def execUndefMisc01000080 (c : Cond) (_b22 _b21 : Bool) (_f16 _f12 _f8 : BitVec 4) (_b6 _b5 : Bool) (_f0 : BitVec 4) (s : State) : Result :=
  undefinedArm c s

/-- UNDEFINED(misc space), undefined (44_arm_branch_system.md R348). -/
def execUndefMisc01000010 (c : Cond) (_f16 _f12 _f8 : BitVec 4) (_b6 _b5 : Bool) (_f0 : BitVec 4) (s : State) : Result :=
  undefinedArm c s

/-- UNDEFINED(misc space), undefined (44_arm_branch_system.md R348). -/
def execUndefMisc01200030 (c : Cond) (_f16 _f12 _f8 _f0 : BitVec 4) (s : State) : Result :=
  undefinedArm c s

/-- UNDEFINED(misc space), undefined (44_arm_branch_system.md R348). -/
def execUndefMisc01200050 (c : Cond) (_f16 _f12 _f8 : BitVec 4) (_b5 : Bool) (_f0 : BitVec 4) (s : State) : Result :=
  undefinedArm c s

/-- UNDEFINED(misc space), undefined (44_arm_branch_system.md R348). -/
def execUndefMisc01400010 (c : Cond) (_b21 : Bool) (_f16 _f12 _f8 : BitVec 4) (_b6 _b5 : Bool) (_f0 : BitVec 4) (s : State) : Result :=
  undefinedArm c s

/-- UNDEFINED(multiply/swap space), undefined (44_arm_branch_system.md R348). -/
def execUndefMulSwap00400090 (c : Cond) (_b21 _b20 : Bool) (_f16 _f12 _f8 _f0 : BitVec 4) (s : State) : Result :=
  undefinedArm c s

/-- UNDEFINED(multiply/swap space), undefined (44_arm_branch_system.md R348). -/
def execUndefMulSwap01100090 (c : Cond) (_b22 : Bool) (_f16 _f12 _f8 _f0 : BitVec 4) (s : State) : Result :=
  undefinedArm c s

/-- UNDEFINED(multiply/swap space), undefined (44_arm_branch_system.md R348). -/
def execUndefMulSwap01200090 (c : Cond) (_b22 _b20 : Bool) (_f16 _f12 _f8 _f0 : BitVec 4) (s : State) : Result :=
  undefinedArm c s

/-- UNDEFINED(multiply/swap space), undefined (44_arm_branch_system.md R348). -/
def execUndefMulSwap01800090 (c : Cond) (_b22 _b21 _b20 : Bool) (_f16 _f12 _f8 _f0 : BitVec 4) (s : State) : Result :=
  undefinedArm c s

/-- UNDEFINED(halfword store SH=1x), undefined (44_arm_branch_system.md R348). -/
def execUndefHalfStore (c : Cond) (_b24 _b23 _b22 _b21 : Bool) (_f16 _f12 _f8 : BitVec 4) (_b5 : Bool) (_f0 : BitVec 4) (s : State) : Result :=
  undefinedArm c s

/-- UNDEFINED(TST/CMP immediate with S=0), undefined (44_arm_branch_system.md R348). -/
def execUndefTstImm (c : Cond) (_b22 : Bool) (_f16 _f12 _f8 : BitVec 4) (_b7 _b6 _b5 _b4 : Bool) (_f0 : BitVec 4) (s : State) : Result :=
  undefinedArm c s

/-- UNDEFINED(architecturally undefined space), undefined (44_arm_branch_system.md R348). -/
def execUndefArch (c : Cond) (_b24 _b23 _b22 _b21 _b20 : Bool) (_f16 _f12 _f8 : BitVec 4) (_b7 _b6 _b5 : Bool) (_f0 : BitVec 4) (s : State) : Result :=
  undefinedArm c s

end Sys2Proof.Machine
end

