-- ==== Sys2Proof/Machine/Dispatch.lean ====
section
/-! DEFINITION. The meaning of every instruction: one arm per constructor of Instr. -/

namespace Sys2Proof.Machine

open Sys2Proof

/-- Execute one instruction, which stands at `s.pc` (30_encoding.md R121). -/
def exec (i : Instr) (s : State) : Host.Outcome State Fault Refusal :=
  match i with
  | .andImmShift c sf rn rd amt k rm => Sys2Proof.Machine.execAndImmShift c sf rn rd amt k rm s
  | .eorImmShift c sf rn rd amt k rm => Sys2Proof.Machine.execEorImmShift c sf rn rd amt k rm s
  | .subImmShift c sf rn rd amt k rm => Sys2Proof.Machine.execSubImmShift c sf rn rd amt k rm s
  | .rsbImmShift c sf rn rd amt k rm => Sys2Proof.Machine.execRsbImmShift c sf rn rd amt k rm s
  | .addImmShift c sf rn rd amt k rm => Sys2Proof.Machine.execAddImmShift c sf rn rd amt k rm s
  | .adcImmShift c sf rn rd amt k rm => Sys2Proof.Machine.execAdcImmShift c sf rn rd amt k rm s
  | .sbcImmShift c sf rn rd amt k rm => Sys2Proof.Machine.execSbcImmShift c sf rn rd amt k rm s
  | .rscImmShift c sf rn rd amt k rm => Sys2Proof.Machine.execRscImmShift c sf rn rd amt k rm s
  | .mrs c r sbo rd sbzHi sbzLo => Sys2Proof.Machine.execMrs c r sbo rd sbzHi sbzLo s
  | .msrReg c r fm sbo sbz rm => Sys2Proof.Machine.execMsrReg c r fm sbo sbz rm s
  | .undefMisc01000020 c b22 b21 f16 f12 f8 f0 => Sys2Proof.Machine.execUndefMisc01000020 c b22 b21 f16 f12 f8 f0 s
  | .undefMisc01000040 c b22 b21 f16 f12 f8 b5 f0 => Sys2Proof.Machine.execUndefMisc01000040 c b22 b21 f16 f12 f8 b5 f0 s
  | .undefMisc01000080 c b22 b21 f16 f12 f8 b6 b5 f0 => Sys2Proof.Machine.execUndefMisc01000080 c b22 b21 f16 f12 f8 b6 b5 f0 s
  | .tstImmShift c rn rd amt k rm => Sys2Proof.Machine.execTstImmShift c rn rd amt k rm s
  | .teqImmShift c rn rd amt k rm => Sys2Proof.Machine.execTeqImmShift c rn rd amt k rm s
  | .cmpImmShift c rn rd amt k rm => Sys2Proof.Machine.execCmpImmShift c rn rd amt k rm s
  | .cmnImmShift c rn rd amt k rm => Sys2Proof.Machine.execCmnImmShift c rn rd amt k rm s
  | .orrImmShift c sf rn rd amt k rm => Sys2Proof.Machine.execOrrImmShift c sf rn rd amt k rm s
  | .movImmShift c sf rn rd amt k rm => Sys2Proof.Machine.execMovImmShift c sf rn rd amt k rm s
  | .bicImmShift c sf rn rd amt k rm => Sys2Proof.Machine.execBicImmShift c sf rn rd amt k rm s
  | .mvnImmShift c sf rn rd amt k rm => Sys2Proof.Machine.execMvnImmShift c sf rn rd amt k rm s
  | .andRegShift c sf rn rd rs k rm => Sys2Proof.Machine.execAndRegShift c sf rn rd rs k rm s
  | .eorRegShift c sf rn rd rs k rm => Sys2Proof.Machine.execEorRegShift c sf rn rd rs k rm s
  | .subRegShift c sf rn rd rs k rm => Sys2Proof.Machine.execSubRegShift c sf rn rd rs k rm s
  | .rsbRegShift c sf rn rd rs k rm => Sys2Proof.Machine.execRsbRegShift c sf rn rd rs k rm s
  | .addRegShift c sf rn rd rs k rm => Sys2Proof.Machine.execAddRegShift c sf rn rd rs k rm s
  | .adcRegShift c sf rn rd rs k rm => Sys2Proof.Machine.execAdcRegShift c sf rn rd rs k rm s
  | .sbcRegShift c sf rn rd rs k rm => Sys2Proof.Machine.execSbcRegShift c sf rn rd rs k rm s
  | .rscRegShift c sf rn rd rs k rm => Sys2Proof.Machine.execRscRegShift c sf rn rd rs k rm s
  | .undefMisc01000010 c f16 f12 f8 b6 b5 f0 => Sys2Proof.Machine.execUndefMisc01000010 c f16 f12 f8 b6 b5 f0 s
  | .tstRegShift c rn rd rs k rm => Sys2Proof.Machine.execTstRegShift c rn rd rs k rm s
  | .bx c sbo rm => Sys2Proof.Machine.execBx c sbo rm s
  | .undefMisc01200030 c f16 f12 f8 f0 => Sys2Proof.Machine.execUndefMisc01200030 c f16 f12 f8 f0 s
  | .undefMisc01200050 c f16 f12 f8 b5 f0 => Sys2Proof.Machine.execUndefMisc01200050 c f16 f12 f8 b5 f0 s
  | .teqRegShift c rn rd rs k rm => Sys2Proof.Machine.execTeqRegShift c rn rd rs k rm s
  | .undefMisc01400010 c b21 f16 f12 f8 b6 b5 f0 => Sys2Proof.Machine.execUndefMisc01400010 c b21 f16 f12 f8 b6 b5 f0 s
  | .cmpRegShift c rn rd rs k rm => Sys2Proof.Machine.execCmpRegShift c rn rd rs k rm s
  | .cmnRegShift c rn rd rs k rm => Sys2Proof.Machine.execCmnRegShift c rn rd rs k rm s
  | .orrRegShift c sf rn rd rs k rm => Sys2Proof.Machine.execOrrRegShift c sf rn rd rs k rm s
  | .movRegShift c sf rn rd rs k rm => Sys2Proof.Machine.execMovRegShift c sf rn rd rs k rm s
  | .bicRegShift c sf rn rd rs k rm => Sys2Proof.Machine.execBicRegShift c sf rn rd rs k rm s
  | .mvnRegShift c sf rn rd rs k rm => Sys2Proof.Machine.execMvnRegShift c sf rn rd rs k rm s
  | .mul c sf rd rn rs rm => Sys2Proof.Machine.execMul c sf rd rn rs rm s
  | .mla c sf rd rn rs rm => Sys2Proof.Machine.execMla c sf rd rn rs rm s
  | .undefMulSwap00400090 c b21 b20 f16 f12 f8 f0 => Sys2Proof.Machine.execUndefMulSwap00400090 c b21 b20 f16 f12 f8 f0 s
  | .umull c sf rdHi rdLo rs rm => Sys2Proof.Machine.execUmull c sf rdHi rdLo rs rm s
  | .umlal c sf rdHi rdLo rs rm => Sys2Proof.Machine.execUmlal c sf rdHi rdLo rs rm s
  | .smull c sf rdHi rdLo rs rm => Sys2Proof.Machine.execSmull c sf rdHi rdLo rs rm s
  | .smlal c sf rdHi rdLo rs rm => Sys2Proof.Machine.execSmlal c sf rdHi rdLo rs rm s
  | .swp c rn rd sbz rm => Sys2Proof.Machine.execSwp c rn rd sbz rm s
  | .swpb c rn rd sbz rm => Sys2Proof.Machine.execSwpb c rn rd sbz rm s
  | .undefMulSwap01100090 c b22 f16 f12 f8 f0 => Sys2Proof.Machine.execUndefMulSwap01100090 c b22 f16 f12 f8 f0 s
  | .undefMulSwap01200090 c b22 b20 f16 f12 f8 f0 => Sys2Proof.Machine.execUndefMulSwap01200090 c b22 b20 f16 f12 f8 f0 s
  | .undefMulSwap01800090 c b22 b21 b20 f16 f12 f8 f0 => Sys2Proof.Machine.execUndefMulSwap01800090 c b22 b21 b20 f16 f12 f8 f0 s
  | .strhReg c p u w rn rd sbz rm => Sys2Proof.Machine.execStrhReg c p u w rn rd sbz rm s
  | .ldrhReg c p u w rn rd sbz rm => Sys2Proof.Machine.execLdrhReg c p u w rn rd sbz rm s
  | .strhImm c p u w rn rd immHi immLo => Sys2Proof.Machine.execStrhImm c p u w rn rd immHi immLo s
  | .ldrhImm c p u w rn rd immHi immLo => Sys2Proof.Machine.execLdrhImm c p u w rn rd immHi immLo s
  | .undefHalfStore c b24 b23 b22 b21 f16 f12 f8 b5 f0 => Sys2Proof.Machine.execUndefHalfStore c b24 b23 b22 b21 f16 f12 f8 b5 f0 s
  | .ldrsbReg c p u w rn rd sbz rm => Sys2Proof.Machine.execLdrsbReg c p u w rn rd sbz rm s
  | .ldrshReg c p u w rn rd sbz rm => Sys2Proof.Machine.execLdrshReg c p u w rn rd sbz rm s
  | .ldrsbImm c p u w rn rd immHi immLo => Sys2Proof.Machine.execLdrsbImm c p u w rn rd immHi immLo s
  | .ldrshImm c p u w rn rd immHi immLo => Sys2Proof.Machine.execLdrshImm c p u w rn rd immHi immLo s
  | .andImm c sf rn rd rot imm => Sys2Proof.Machine.execAndImm c sf rn rd rot imm s
  | .eorImm c sf rn rd rot imm => Sys2Proof.Machine.execEorImm c sf rn rd rot imm s
  | .subImm c sf rn rd rot imm => Sys2Proof.Machine.execSubImm c sf rn rd rot imm s
  | .rsbImm c sf rn rd rot imm => Sys2Proof.Machine.execRsbImm c sf rn rd rot imm s
  | .addImm c sf rn rd rot imm => Sys2Proof.Machine.execAddImm c sf rn rd rot imm s
  | .adcImm c sf rn rd rot imm => Sys2Proof.Machine.execAdcImm c sf rn rd rot imm s
  | .sbcImm c sf rn rd rot imm => Sys2Proof.Machine.execSbcImm c sf rn rd rot imm s
  | .rscImm c sf rn rd rot imm => Sys2Proof.Machine.execRscImm c sf rn rd rot imm s
  | .undefTstImm c b22 f16 f12 f8 b7 b6 b5 b4 f0 => Sys2Proof.Machine.execUndefTstImm c b22 f16 f12 f8 b7 b6 b5 b4 f0 s
  | .tstImm c rn rd rot imm => Sys2Proof.Machine.execTstImm c rn rd rot imm s
  | .cmpImm c rn rd rot imm => Sys2Proof.Machine.execCmpImm c rn rd rot imm s
  | .msrImm c r fm sbo rot imm => Sys2Proof.Machine.execMsrImm c r fm sbo rot imm s
  | .teqImm c rn rd rot imm => Sys2Proof.Machine.execTeqImm c rn rd rot imm s
  | .cmnImm c rn rd rot imm => Sys2Proof.Machine.execCmnImm c rn rd rot imm s
  | .orrImm c sf rn rd rot imm => Sys2Proof.Machine.execOrrImm c sf rn rd rot imm s
  | .movImm c sf rn rd rot imm => Sys2Proof.Machine.execMovImm c sf rn rd rot imm s
  | .bicImm c sf rn rd rot imm => Sys2Proof.Machine.execBicImm c sf rn rd rot imm s
  | .mvnImm c sf rn rd rot imm => Sys2Proof.Machine.execMvnImm c sf rn rd rot imm s
  | .strImmPost c u rn rd off => Sys2Proof.Machine.execStrImmPost c u rn rd off s
  | .ldrImmPost c u rn rd off => Sys2Proof.Machine.execLdrImmPost c u rn rd off s
  | .strtImm c u rn rd off => Sys2Proof.Machine.execStrtImm c u rn rd off s
  | .ldrtImm c u rn rd off => Sys2Proof.Machine.execLdrtImm c u rn rd off s
  | .strbImmPost c u rn rd off => Sys2Proof.Machine.execStrbImmPost c u rn rd off s
  | .ldrbImmPost c u rn rd off => Sys2Proof.Machine.execLdrbImmPost c u rn rd off s
  | .strbtImm c u rn rd off => Sys2Proof.Machine.execStrbtImm c u rn rd off s
  | .ldrbtImm c u rn rd off => Sys2Proof.Machine.execLdrbtImm c u rn rd off s
  | .strImmPre c u w rn rd off => Sys2Proof.Machine.execStrImmPre c u w rn rd off s
  | .ldrImmPre c u w rn rd off => Sys2Proof.Machine.execLdrImmPre c u w rn rd off s
  | .strbImmPre c u w rn rd off => Sys2Proof.Machine.execStrbImmPre c u w rn rd off s
  | .ldrbImmPre c u w rn rd off => Sys2Proof.Machine.execLdrbImmPre c u w rn rd off s
  | .strRegPost c u rn rd amt k rm => Sys2Proof.Machine.execStrRegPost c u rn rd amt k rm s
  | .ldrRegPost c u rn rd amt k rm => Sys2Proof.Machine.execLdrRegPost c u rn rd amt k rm s
  | .strtReg c u rn rd amt k rm => Sys2Proof.Machine.execStrtReg c u rn rd amt k rm s
  | .ldrtReg c u rn rd amt k rm => Sys2Proof.Machine.execLdrtReg c u rn rd amt k rm s
  | .strbRegPost c u rn rd amt k rm => Sys2Proof.Machine.execStrbRegPost c u rn rd amt k rm s
  | .ldrbRegPost c u rn rd amt k rm => Sys2Proof.Machine.execLdrbRegPost c u rn rd amt k rm s
  | .strbtReg c u rn rd amt k rm => Sys2Proof.Machine.execStrbtReg c u rn rd amt k rm s
  | .ldrbtReg c u rn rd amt k rm => Sys2Proof.Machine.execLdrbtReg c u rn rd amt k rm s
  | .strRegPre c u w rn rd amt k rm => Sys2Proof.Machine.execStrRegPre c u w rn rd amt k rm s
  | .ldrRegPre c u w rn rd amt k rm => Sys2Proof.Machine.execLdrRegPre c u w rn rd amt k rm s
  | .strbRegPre c u w rn rd amt k rm => Sys2Proof.Machine.execStrbRegPre c u w rn rd amt k rm s
  | .ldrbRegPre c u w rn rd amt k rm => Sys2Proof.Machine.execLdrbRegPre c u w rn rd amt k rm s
  | .undefArch c b24 b23 b22 b21 b20 f16 f12 f8 b7 b6 b5 f0 => Sys2Proof.Machine.execUndefArch c b24 b23 b22 b21 b20 f16 f12 f8 b7 b6 b5 f0 s
  | .stm c p u sf w rn list => Sys2Proof.Machine.execStm c p u sf w rn list s
  | .ldm c p u sf w rn list => Sys2Proof.Machine.execLdm c p u sf w rn list s
  | .b c off => Sys2Proof.Machine.execB c off s
  | .bl c off => Sys2Proof.Machine.execBl c off s
  | .stc c p u n w rn crd cp off => Sys2Proof.Machine.execStc c p u n w rn crd cp off s
  | .ldc c p u n w rn crd cp off => Sys2Proof.Machine.execLdc c p u n w rn crd cp off s
  | .cdp c op1 crn crd cp op2 crm => Sys2Proof.Machine.execCdp c op1 crn crd cp op2 crm s
  | .mcr c op1 crn rd cp op2 crm => Sys2Proof.Machine.execMcr c op1 crn rd cp op2 crm s
  | .mrc c op1 crn rd cp op2 crm => Sys2Proof.Machine.execMrc c op1 crn rd cp op2 crm s
  | .swi c cmt => Sys2Proof.Machine.execSwi c cmt s
  | .tLslImm off rs rd => Sys2Proof.Machine.execTLslImm off rs rd s
  | .tLsrImm off rs rd => Sys2Proof.Machine.execTLsrImm off rs rd s
  | .tAsrImm off rs rd => Sys2Proof.Machine.execTAsrImm off rs rd s
  | .tAddReg rn rs rd => Sys2Proof.Machine.execTAddReg rn rs rd s
  | .tSubReg rn rs rd => Sys2Proof.Machine.execTSubReg rn rs rd s
  | .tAddImm3 imm rs rd => Sys2Proof.Machine.execTAddImm3 imm rs rd s
  | .tSubImm3 imm rs rd => Sys2Proof.Machine.execTSubImm3 imm rs rd s
  | .tMovImm rd imm => Sys2Proof.Machine.execTMovImm rd imm s
  | .tCmpImm rd imm => Sys2Proof.Machine.execTCmpImm rd imm s
  | .tAddImm8 rd imm => Sys2Proof.Machine.execTAddImm8 rd imm s
  | .tSubImm8 rd imm => Sys2Proof.Machine.execTSubImm8 rd imm s
  | .tAnd rs rd => Sys2Proof.Machine.execTAnd rs rd s
  | .tEor rs rd => Sys2Proof.Machine.execTEor rs rd s
  | .tLslReg rs rd => Sys2Proof.Machine.execTLslReg rs rd s
  | .tLsrReg rs rd => Sys2Proof.Machine.execTLsrReg rs rd s
  | .tAsrReg rs rd => Sys2Proof.Machine.execTAsrReg rs rd s
  | .tAdc rs rd => Sys2Proof.Machine.execTAdc rs rd s
  | .tSbc rs rd => Sys2Proof.Machine.execTSbc rs rd s
  | .tRorReg rs rd => Sys2Proof.Machine.execTRorReg rs rd s
  | .tTst rs rd => Sys2Proof.Machine.execTTst rs rd s
  | .tNeg rs rd => Sys2Proof.Machine.execTNeg rs rd s
  | .tCmpReg rs rd => Sys2Proof.Machine.execTCmpReg rs rd s
  | .tCmn rs rd => Sys2Proof.Machine.execTCmn rs rd s
  | .tOrr rs rd => Sys2Proof.Machine.execTOrr rs rd s
  | .tMul rs rd => Sys2Proof.Machine.execTMul rs rd s
  | .tBic rs rd => Sys2Proof.Machine.execTBic rs rd s
  | .tMvn rs rd => Sys2Proof.Machine.execTMvn rs rd s
  | .tAddHi h1 h2 rs rd => Sys2Proof.Machine.execTAddHi h1 h2 rs rd s
  | .tCmpHi h1 h2 rs rd => Sys2Proof.Machine.execTCmpHi h1 h2 rs rd s
  | .tMovHi h1 h2 rs rd => Sys2Proof.Machine.execTMovHi h1 h2 rs rd s
  | .tBx h1 h2 rs rd => Sys2Proof.Machine.execTBx h1 h2 rs rd s
  | .tLdrPc rd off => Sys2Proof.Machine.execTLdrPc rd off s
  | .tStrReg ro rb rd => Sys2Proof.Machine.execTStrReg ro rb rd s
  | .tStrhReg ro rb rd => Sys2Proof.Machine.execTStrhReg ro rb rd s
  | .tStrbReg ro rb rd => Sys2Proof.Machine.execTStrbReg ro rb rd s
  | .tLdrsbReg ro rb rd => Sys2Proof.Machine.execTLdrsbReg ro rb rd s
  | .tLdrReg ro rb rd => Sys2Proof.Machine.execTLdrReg ro rb rd s
  | .tLdrhReg ro rb rd => Sys2Proof.Machine.execTLdrhReg ro rb rd s
  | .tLdrbReg ro rb rd => Sys2Proof.Machine.execTLdrbReg ro rb rd s
  | .tLdrshReg ro rb rd => Sys2Proof.Machine.execTLdrshReg ro rb rd s
  | .tStrImm off rb rd => Sys2Proof.Machine.execTStrImm off rb rd s
  | .tLdrImm off rb rd => Sys2Proof.Machine.execTLdrImm off rb rd s
  | .tStrbImm off rb rd => Sys2Proof.Machine.execTStrbImm off rb rd s
  | .tLdrbImm off rb rd => Sys2Proof.Machine.execTLdrbImm off rb rd s
  | .tStrhImm off rb rd => Sys2Proof.Machine.execTStrhImm off rb rd s
  | .tLdrhImm off rb rd => Sys2Proof.Machine.execTLdrhImm off rb rd s
  | .tStrSp rd off => Sys2Proof.Machine.execTStrSp rd off s
  | .tLdrSp rd off => Sys2Proof.Machine.execTLdrSp rd off s
  | .tAddPc rd off => Sys2Proof.Machine.execTAddPc rd off s
  | .tAddSp rd off => Sys2Proof.Machine.execTAddSp rd off s
  | .tSpAdd off => Sys2Proof.Machine.execTSpAdd off s
  | .tSpSub off => Sys2Proof.Machine.execTSpSub off s
  | .tUndefB1 low => Sys2Proof.Machine.execTUndefB1 low s
  | .tPush r list => Sys2Proof.Machine.execTPush r list s
  | .tUndefB8 low => Sys2Proof.Machine.execTUndefB8 low s
  | .tPop r list => Sys2Proof.Machine.execTPop r list s
  | .tUndefB2 b11 b10 low => Sys2Proof.Machine.execTUndefB2 b11 b10 low s
  | .tStmia rb list => Sys2Proof.Machine.execTStmia rb list s
  | .tLdmia rb list => Sys2Proof.Machine.execTLdmia rb list s
  | .tBcondD0 cb off => Sys2Proof.Machine.execTBcondD0 cb off s
  | .tBcondD8 cb off => Sys2Proof.Machine.execTBcondD8 cb off s
  | .tBcondDC cb off => Sys2Proof.Machine.execTBcondDC cb off s
  | .tUndefDE low => Sys2Proof.Machine.execTUndefDE low s
  | .tSwi val => Sys2Proof.Machine.execTSwi val s
  | .tB off => Sys2Proof.Machine.execTB off s
  | .tUndefE8 low => Sys2Proof.Machine.execTUndefE8 low s
  | .tBlFirst off => Sys2Proof.Machine.execTBlFirst off s
  | .tBlSecond off => Sys2Proof.Machine.execTBlSecond off s

end Sys2Proof.Machine
end

