-- ==== Sys2Proof/Machine/Step.lean ====
section
/-! DEFINITION. The step of the machine: one pass of the dispatch loop (70_reset_and_hazards.md R543,
60_exceptions.md R499). -/

namespace Sys2Proof.Machine

open Sys2Proof

/-- One boundary: while the host holds the core nothing happens (notes/assumptions/9.md); else the IRQ is
taken if it is pending and unmasked; else one instruction is fetched, decoded and executed. -/
def step (s : State) : Host.Outcome State Fault Refusal :=
  if hostHolds s then .next s
  else if irqTaken s then .next (irqStep s)
  else andThen (exec (decode (fetchCode s)) (fetched s)) (fun t => .next (debit s t))

/-- The state with the instruction of an opcode-table row stored where the next step fetches it
(notes/assumptions/18.md). -/
def State.withFetchWord (s : State) (nbits w : Nat) : State :=
  placeNext s (tableRowIsThumb nbits) (tableWordBytes nbits w)

end Sys2Proof.Machine
end

