-- ==== Sys2Proof/Safety.lean ====
section
/-! DEFINITION. What a well-kept state and a safe step are, in the terms of the statements. -/

namespace Sys2Proof.Machine

open Sys2Proof

/-- R15 is a multiple of the instruction width (10_state.md R40). -/
def PcAligned (s : State) : Prop := fetchAddress s.cpsr.t s.pc = s.pc

/-- The invariant every step keeps: memory in canonical form (20_memory.md R81), R15 aligned
(10_state.md R40). -/
structure State.Inv (s : State) : Prop where
  mem : Memory.WF s.mem
  pc : PcAligned s

/-- A step that has a successor: neither a fault nor a refusal (00_scope.md R12). -/
def StepSafe (s : State) : Prop := ∃ t, step s = .next t

/-- Everything the host owns and the core only reads (10_state.md R45, 70_reset_and_hazards.md R544, R545). -/
def SameHostState (s t : State) : Prop :=
  t.irqLine = s.irqLine ∧ t.breakFlag = s.breakFlag ∧ t.breakpoints = s.breakpoints
    ∧ t.accessTable = s.accessTable ∧ t.devices = s.devices ∧ t.costRule = s.costRule

end Sys2Proof.Machine
end

