-- ==== Sys2Proof/WellFormed.lean ====
section
/-! DEFINITION. Which instructions are well formed: the restrictions that the encoding alone shows, each with
the name of the UNPREDICTABLE case it is (93_implementation_defined.md A.2), in the order a step checks
them (60_exceptions.md R499). Restrictions that depend on the mode or on a register's value are checked
by the meanings. -/

namespace Sys2Proof

open Sys2Proof.Machine (UnpredictableCase)

/-- The first check that fails. -/
def firstDefect : List (Bool × UnpredictableCase) → Option UnpredictableCase
  | [] => none
  | (bad, case) :: rest => if bad then some case else firstDefect rest

/-- The checks of an ARM instruction: the condition field first (30_encoding.md R124). -/
def armDefect (c : Cond) (checks : List (Bool × UnpredictableCase)) : Option UnpredictableCase :=
  firstDefect ((c == .nv, .nvCondition) :: checks)

/-- Data processing: Rn of MOV and MVN and Rd of the tests are SBZ (30_encoding.md R137), Rs is not R15
(40_shifter.md R188). -/
def dpDefect (c : Cond) (move test : Bool) (rn rd : Reg) (rsIsPc : Bool) : Option UnpredictableCase :=
  armDefect c [((move && rn != 0) || (test && rd != 0), .sbzSbo), (rsIsPc, .rsIsPc)]

/-- The long multiplies (42_arm_psr_multiply_swap.md R253). -/
def longDefect (c : Cond) (rdHi rdLo rs rm : Reg) : Option UnpredictableCase :=
  armDefect c [(rdHi == 15 || rdLo == 15 || rs == 15 || rm == 15, .mulPc),
    (rdHi == rm || rdLo == rm || rdHi == rdLo, .mulOverlap)]

/-- SWP and SWPB (42_arm_psr_multiply_swap.md R260; 30_encoding.md R137). -/
def swapDefect (c : Cond) (rn rd : Reg) (sbz : BitVec 4) (rm : Reg) : Option UnpredictableCase :=
  armDefect c [(sbz != 0, .sbzSbo), (rd == 15 || rm == 15 || rn == 15, .swpPc),
    (rn == rm || rn == rd, .swpOverlap)]

/-- Word and byte transfers with an offset register `rm`, or none (43_arm_load_store.md R291). -/
def wordByteDefect (c : Cond) (byte writeback : Bool) (rn rd : Reg) (rm : Option Reg) :
    Option UnpredictableCase :=
  armDefect c [(rm == some 15 || (writeback && rn == 15) || (byte && rd == 15)
    || (writeback && rm == some rn), .lsPc)]

/-- Halfword and signed transfers (43_arm_load_store.md R300; 30_encoding.md R137; Rm = Rn with write-back is
`ls-pc` of 93_implementation_defined.md A.2, notes/assumptions/21.md). -/
def halfwordDefect (c : Cond) (p w : Bool) (rn rd : Reg) (sbz : BitVec 4) (rm : Option Reg) :
    Option UnpredictableCase :=
  armDefect c [(sbz != 0, .sbzSbo),
    ((!p && w) || rd == 15 || rm == some 15 || ((!p || w) && rn == 15)
      || ((!p || w) && rm == some rn), .lsPc)]

/-- Why an instruction is ill formed, if it is. -/
def Instr.defect (i : Instr) : Option UnpredictableCase :=
  match i with
  | .andImmShift c _ rn rd _ _ _ => dpDefect c false false rn rd false
  | .eorImmShift c _ rn rd _ _ _ => dpDefect c false false rn rd false
  | .subImmShift c _ rn rd _ _ _ => dpDefect c false false rn rd false
  | .rsbImmShift c _ rn rd _ _ _ => dpDefect c false false rn rd false
  | .addImmShift c _ rn rd _ _ _ => dpDefect c false false rn rd false
  | .adcImmShift c _ rn rd _ _ _ => dpDefect c false false rn rd false
  | .sbcImmShift c _ rn rd _ _ _ => dpDefect c false false rn rd false
  | .rscImmShift c _ rn rd _ _ _ => dpDefect c false false rn rd false
  | .mrs c _ sbo rd sbzHi sbzLo => armDefect c [(sbo != 15 || sbzHi != 0 || sbzLo != 0, .sbzSbo), (rd == 15, .mrsRdPc)]
  | .msrReg c _ _ sbo sbz rm => armDefect c [(sbo != 15 || sbz != 0, .sbzSbo), (rm == 15, .msrRmPc)]
  | .undefMisc01000020 c _ _ _ _ _ _ => armDefect c []
  | .undefMisc01000040 c _ _ _ _ _ _ _ => armDefect c []
  | .undefMisc01000080 c _ _ _ _ _ _ _ _ => armDefect c []
  | .tstImmShift c rn rd _ _ _ => dpDefect c false true rn rd false
  | .teqImmShift c rn rd _ _ _ => dpDefect c false true rn rd false
  | .cmpImmShift c rn rd _ _ _ => dpDefect c false true rn rd false
  | .cmnImmShift c rn rd _ _ _ => dpDefect c false true rn rd false
  | .orrImmShift c _ rn rd _ _ _ => dpDefect c false false rn rd false
  | .movImmShift c _ rn rd _ _ _ => dpDefect c true false rn rd false
  | .bicImmShift c _ rn rd _ _ _ => dpDefect c false false rn rd false
  | .mvnImmShift c _ rn rd _ _ _ => dpDefect c true false rn rd false
  | .andRegShift c _ rn rd rs _ _ => dpDefect c false false rn rd (rs == 15)
  | .eorRegShift c _ rn rd rs _ _ => dpDefect c false false rn rd (rs == 15)
  | .subRegShift c _ rn rd rs _ _ => dpDefect c false false rn rd (rs == 15)
  | .rsbRegShift c _ rn rd rs _ _ => dpDefect c false false rn rd (rs == 15)
  | .addRegShift c _ rn rd rs _ _ => dpDefect c false false rn rd (rs == 15)
  | .adcRegShift c _ rn rd rs _ _ => dpDefect c false false rn rd (rs == 15)
  | .sbcRegShift c _ rn rd rs _ _ => dpDefect c false false rn rd (rs == 15)
  | .rscRegShift c _ rn rd rs _ _ => dpDefect c false false rn rd (rs == 15)
  | .undefMisc01000010 c _ _ _ _ _ _ => armDefect c []
  | .tstRegShift c rn rd rs _ _ => dpDefect c false true rn rd (rs == 15)
  | .bx c sbo _ => armDefect c [(sbo != 0xFFF, .sbzSbo)]
  | .undefMisc01200030 c _ _ _ _ => armDefect c []
  | .undefMisc01200050 c _ _ _ _ _ => armDefect c []
  | .teqRegShift c rn rd rs _ _ => dpDefect c false true rn rd (rs == 15)
  | .undefMisc01400010 c _ _ _ _ _ _ _ => armDefect c []
  | .cmpRegShift c rn rd rs _ _ => dpDefect c false true rn rd (rs == 15)
  | .cmnRegShift c rn rd rs _ _ => dpDefect c false true rn rd (rs == 15)
  | .orrRegShift c _ rn rd rs _ _ => dpDefect c false false rn rd (rs == 15)
  | .movRegShift c _ rn rd rs _ _ => dpDefect c true false rn rd (rs == 15)
  | .bicRegShift c _ rn rd rs _ _ => dpDefect c false false rn rd (rs == 15)
  | .mvnRegShift c _ rn rd rs _ _ => dpDefect c true false rn rd (rs == 15)
  | .mul c _ rd rn rs rm => armDefect c [(rn != 0, .sbzSbo), (rd == 15 || rs == 15 || rm == 15, .mulPc), (rd == rm, .mulOverlap)]
  | .mla c _ rd rn rs rm => armDefect c [(rd == 15 || rs == 15 || rm == 15 || rn == 15, .mulPc), (rd == rm, .mulOverlap)]
  | .undefMulSwap00400090 c _ _ _ _ _ _ => armDefect c []
  | .umull c _ rdHi rdLo rs rm => longDefect c rdHi rdLo rs rm
  | .umlal c _ rdHi rdLo rs rm => longDefect c rdHi rdLo rs rm
  | .smull c _ rdHi rdLo rs rm => longDefect c rdHi rdLo rs rm
  | .smlal c _ rdHi rdLo rs rm => longDefect c rdHi rdLo rs rm
  | .swp c rn rd sbz rm => swapDefect c rn rd sbz rm
  | .swpb c rn rd sbz rm => swapDefect c rn rd sbz rm
  | .undefMulSwap01100090 c _ _ _ _ _ => armDefect c []
  | .undefMulSwap01200090 c _ _ _ _ _ _ => armDefect c []
  | .undefMulSwap01800090 c _ _ _ _ _ _ _ => armDefect c []
  | .strhReg c p _ w rn rd sbz rm => halfwordDefect c p w rn rd sbz (some rm)
  | .ldrhReg c p _ w rn rd sbz rm => halfwordDefect c p w rn rd sbz (some rm)
  | .strhImm c p _ w rn rd _ _ => halfwordDefect c p w rn rd 0 none
  | .ldrhImm c p _ w rn rd _ _ => halfwordDefect c p w rn rd 0 none
  | .undefHalfStore c _ _ _ _ _ _ _ _ _ => armDefect c []
  | .ldrsbReg c p _ w rn rd sbz rm => halfwordDefect c p w rn rd sbz (some rm)
  | .ldrshReg c p _ w rn rd sbz rm => halfwordDefect c p w rn rd sbz (some rm)
  | .ldrsbImm c p _ w rn rd _ _ => halfwordDefect c p w rn rd 0 none
  | .ldrshImm c p _ w rn rd _ _ => halfwordDefect c p w rn rd 0 none
  | .andImm c _ rn rd _ _ => dpDefect c false false rn rd false
  | .eorImm c _ rn rd _ _ => dpDefect c false false rn rd false
  | .subImm c _ rn rd _ _ => dpDefect c false false rn rd false
  | .rsbImm c _ rn rd _ _ => dpDefect c false false rn rd false
  | .addImm c _ rn rd _ _ => dpDefect c false false rn rd false
  | .adcImm c _ rn rd _ _ => dpDefect c false false rn rd false
  | .sbcImm c _ rn rd _ _ => dpDefect c false false rn rd false
  | .rscImm c _ rn rd _ _ => dpDefect c false false rn rd false
  | .undefTstImm c _ _ _ _ _ _ _ _ _ => armDefect c []
  | .tstImm c rn rd _ _ => dpDefect c false true rn rd false
  | .cmpImm c rn rd _ _ => dpDefect c false true rn rd false
  | .msrImm c _ _ sbo _ _ => armDefect c [(sbo != 15, .sbzSbo)]
  | .teqImm c rn rd _ _ => dpDefect c false true rn rd false
  | .cmnImm c rn rd _ _ => dpDefect c false true rn rd false
  | .orrImm c _ rn rd _ _ => dpDefect c false false rn rd false
  | .movImm c _ rn rd _ _ => dpDefect c true false rn rd false
  | .bicImm c _ rn rd _ _ => dpDefect c false false rn rd false
  | .mvnImm c _ rn rd _ _ => dpDefect c true false rn rd false
  | .strImmPost c _ rn rd _ => wordByteDefect c false true rn rd none
  | .ldrImmPost c _ rn rd _ => wordByteDefect c false true rn rd none
  | .strtImm c _ rn rd _ => wordByteDefect c false true rn rd none
  | .ldrtImm c _ rn rd _ => wordByteDefect c false true rn rd none
  | .strbImmPost c _ rn rd _ => wordByteDefect c true true rn rd none
  | .ldrbImmPost c _ rn rd _ => wordByteDefect c true true rn rd none
  | .strbtImm c _ rn rd _ => wordByteDefect c true true rn rd none
  | .ldrbtImm c _ rn rd _ => wordByteDefect c true true rn rd none
  | .strImmPre c _ w rn rd _ => wordByteDefect c false w rn rd none
  | .ldrImmPre c _ w rn rd _ => wordByteDefect c false w rn rd none
  | .strbImmPre c _ w rn rd _ => wordByteDefect c true w rn rd none
  | .ldrbImmPre c _ w rn rd _ => wordByteDefect c true w rn rd none
  | .strRegPost c _ rn rd _ _ rm => wordByteDefect c false true rn rd (some rm)
  | .ldrRegPost c _ rn rd _ _ rm => wordByteDefect c false true rn rd (some rm)
  | .strtReg c _ rn rd _ _ rm => wordByteDefect c false true rn rd (some rm)
  | .ldrtReg c _ rn rd _ _ rm => wordByteDefect c false true rn rd (some rm)
  | .strbRegPost c _ rn rd _ _ rm => wordByteDefect c true true rn rd (some rm)
  | .ldrbRegPost c _ rn rd _ _ rm => wordByteDefect c true true rn rd (some rm)
  | .strbtReg c _ rn rd _ _ rm => wordByteDefect c true true rn rd (some rm)
  | .ldrbtReg c _ rn rd _ _ rm => wordByteDefect c true true rn rd (some rm)
  | .strRegPre c _ w rn rd _ _ rm => wordByteDefect c false w rn rd (some rm)
  | .ldrRegPre c _ w rn rd _ _ rm => wordByteDefect c false w rn rd (some rm)
  | .strbRegPre c _ w rn rd _ _ rm => wordByteDefect c true w rn rd (some rm)
  | .ldrbRegPre c _ w rn rd _ _ rm => wordByteDefect c true w rn rd (some rm)
  | .undefArch c _ _ _ _ _ _ _ _ _ _ _ _ => armDefect c []
  | .stm c _ _ sf w rn _ => armDefect c [(rn == 15, .ldmStmPcBase), (sf && w, .ldmStmUserBank)]
  | .ldm c _ _ sf w rn list => armDefect c [(rn == 15, .ldmStmPcBase), (sf && w && list != 0 && !list.getLsbD 15, .ldmStmUserBank)]
  | .b c _ => armDefect c []
  | .bl c _ => armDefect c []
  | .stc c _ _ _ _ _ _ _ _ => armDefect c []
  | .ldc c _ _ _ _ _ _ _ _ => armDefect c []
  | .cdp c _ _ _ _ _ _ => armDefect c []
  | .mcr c _ _ _ _ _ _ => armDefect c []
  | .mrc c _ _ _ _ _ _ => armDefect c []
  | .swi c _ => armDefect c []
  | .tLslImm _ _ _ => none
  | .tLsrImm _ _ _ => none
  | .tAsrImm _ _ _ => none
  | .tAddReg _ _ _ => none
  | .tSubReg _ _ _ => none
  | .tAddImm3 _ _ _ => none
  | .tSubImm3 _ _ _ => none
  | .tMovImm _ _ => none
  | .tCmpImm _ _ => none
  | .tAddImm8 _ _ => none
  | .tSubImm8 _ _ => none
  | .tAnd _ _ => none
  | .tEor _ _ => none
  | .tLslReg _ _ => none
  | .tLsrReg _ _ => none
  | .tAsrReg _ _ => none
  | .tAdc _ _ => none
  | .tSbc _ _ => none
  | .tRorReg _ _ => none
  | .tTst _ _ => none
  | .tNeg _ _ => none
  | .tCmpReg _ _ => none
  | .tCmn _ _ => none
  | .tOrr _ _ => none
  | .tMul rs rd => firstDefect [(rd == rs, .mulOverlap)]
  | .tBic _ _ => none
  | .tMvn _ _ => none
  | .tAddHi h1 h2 _ _ => firstDefect [(!h1 && !h2, .thumbHireg)]
  | .tCmpHi h1 h2 _ _ => firstDefect [(!h1 && !h2, .thumbHireg)]
  | .tMovHi h1 h2 _ _ => firstDefect [(!h1 && !h2, .thumbHireg)]
  | .tBx h1 _ _ rd => firstDefect [(h1 || rd != 0, .thumbHireg)]
  | .tLdrPc _ _ => none
  | .tStrReg _ _ _ => none
  | .tStrhReg _ _ _ => none
  | .tStrbReg _ _ _ => none
  | .tLdrsbReg _ _ _ => none
  | .tLdrReg _ _ _ => none
  | .tLdrhReg _ _ _ => none
  | .tLdrbReg _ _ _ => none
  | .tLdrshReg _ _ _ => none
  | .tStrImm _ _ _ => none
  | .tLdrImm _ _ _ => none
  | .tStrbImm _ _ _ => none
  | .tLdrbImm _ _ _ => none
  | .tStrhImm _ _ _ => none
  | .tLdrhImm _ _ _ => none
  | .tStrSp _ _ => none
  | .tLdrSp _ _ => none
  | .tAddPc _ _ => none
  | .tAddSp _ _ => none
  | .tSpAdd _ => none
  | .tSpSub _ => none
  | .tUndefB1 _ => none
  | .tPush _ _ => none
  | .tUndefB8 _ => none
  | .tPop _ _ => none
  | .tUndefB2 _ _ _ => none
  | .tStmia _ _ => none
  | .tLdmia _ _ => none
  | .tBcondD0 _ _ => none
  | .tBcondD8 _ _ => none
  | .tBcondDC _ _ => none
  | .tUndefDE _ => none
  | .tSwi _ => none
  | .tB _ => none
  | .tUndefE8 _ => none
  | .tBlFirst _ => none
  | .tBlSecond _ => none

/-- An instruction no restriction of its encoding rules out. -/
def Instr.wellFormed (i : Instr) : Bool := i.defect.isNone

end Sys2Proof
end

