-- ==== Sys2Proof/Certificates/Slice0/Vocabulary.lean ====
section
/-! DEFINITION. The words the statements of Slice0 are written in: what stays unchanged, when an instruction runs, what
an exception entry leaves, and for each family a table from its instructions to their operands. -/

namespace Sys2Proof.Claims

open Sys2Proof Sys2Proof.Machine

/-! ## What stays -/

/-- Every register of every bank but R15 and the listed ones holds what it held. -/
def SameRegs (changed : List PhysReg) (s t : State) : Prop :=
  ∀ p, p ≠ .pc → p ∉ changed → readPhys t p = readPhys s p

/-- Every SPSR but the listed ones holds what it held. -/
def SameSpsrs (changed : List SpsrName) (s t : State) : Prop :=
  ∀ n, n ∉ changed → readSpsr t n = readSpsr s n

/-- Every byte of memory reads as before. -/
def SameMemory (s t : State) : Prop := ∀ a : Word, byteAt t.mem a = byteAt s.mem a

/-- Whether an address is one of the bytes of an access. -/
def InAccess (w : Width) (a b : Word) : Prop := ∃ k, k < w.bytes ∧ b = a + BitVec.ofNat 32 k

/-- A value written at an address by an access of a width: ordinary memory there holds it, little endian; where the
platform answers itself, the bytes of ordinary memory there are as they were (20_memory.md R80, R82). -/
def Stored (w : Width) (a v : Word) (s t : State) : Prop :=
  (isDevice s.devices a = false → memRead t.mem w a = w.cut v)
    ∧ (isDevice s.devices a = true → ∀ b, InAccess w a b → byteAt t.mem b = byteAt s.mem b)

/-- The frame of an instruction that stores nothing and leaves CPSR: registers but the listed ones, CPSR, SPSRs, memory, the
host's state. -/
structure Frame (changed : List PhysReg) (s t : State) : Prop where
  regs : SameRegs changed s t
  cpsr : t.cpsr = s.cpsr
  spsrs : SameSpsrs [] s t
  mem : SameMemory s t
  host : SameHostState s t

/-- The frame of an instruction that stores nothing but may write CPSR. -/
structure FlagFrame (changed : List PhysReg) (s t : State) : Prop where
  regs : SameRegs changed s t
  spsrs : SameSpsrs [] s t
  mem : SameMemory s t
  host : SameHostState s t

/-- The frame of an instruction that stores the bytes `stored`. -/
structure StoreFrame (changed : List PhysReg) (stored : Word → Prop) (s t : State) : Prop where
  regs : SameRegs changed s t
  cpsr : t.cpsr = s.cpsr
  spsrs : SameSpsrs [] s t
  mem : ∀ b, ¬ stored b → byteAt t.mem b = byteAt s.mem b
  host : SameHostState s t

/-- The physical registers some numbers name in the current mode. -/
def seen (s : State) (rs : List Reg) : List PhysReg := rs.map (bank s.cpsr.mode)

/-- The PC advance that ends an instruction which does not write R15 (10_state.md R40, R45 (f)). -/
def Advanced (s t : State) : Prop :=
  t.pc = s.pc + (if s.cpsr.t then 2 else 4) ∧ t.userBankHazard = false ∧ t.lastFetch = s.lastFetch

/-- The PC write that ends any other (10_state.md R39, R45 (f)): R15 is the target, and the fetch after it is not
sequential (70_reset_and_hazards.md R550). -/
def Jumped (target : Word) (t : State) : Prop := t.pc = target ∧ t.userBankHazard = false ∧ t.lastFetch = none

/-! ## When an instruction runs -/

/-- The condition field of an ARM instruction; a Thumb instruction has none (30_encoding.md R122, R139). -/
def condOf (i : Instr) : Option Cond :=
  match i with
  | .andImmShift c _ _ _ _ _ _ => some c
  | .eorImmShift c _ _ _ _ _ _ => some c
  | .subImmShift c _ _ _ _ _ _ => some c
  | .rsbImmShift c _ _ _ _ _ _ => some c
  | .addImmShift c _ _ _ _ _ _ => some c
  | .adcImmShift c _ _ _ _ _ _ => some c
  | .sbcImmShift c _ _ _ _ _ _ => some c
  | .rscImmShift c _ _ _ _ _ _ => some c
  | .mrs c _ _ _ _ _ => some c
  | .msrReg c _ _ _ _ _ => some c
  | .undefMisc01000020 c _ _ _ _ _ _ => some c
  | .undefMisc01000040 c _ _ _ _ _ _ _ => some c
  | .undefMisc01000080 c _ _ _ _ _ _ _ _ => some c
  | .tstImmShift c _ _ _ _ _ => some c
  | .teqImmShift c _ _ _ _ _ => some c
  | .cmpImmShift c _ _ _ _ _ => some c
  | .cmnImmShift c _ _ _ _ _ => some c
  | .orrImmShift c _ _ _ _ _ _ => some c
  | .movImmShift c _ _ _ _ _ _ => some c
  | .bicImmShift c _ _ _ _ _ _ => some c
  | .mvnImmShift c _ _ _ _ _ _ => some c
  | .andRegShift c _ _ _ _ _ _ => some c
  | .eorRegShift c _ _ _ _ _ _ => some c
  | .subRegShift c _ _ _ _ _ _ => some c
  | .rsbRegShift c _ _ _ _ _ _ => some c
  | .addRegShift c _ _ _ _ _ _ => some c
  | .adcRegShift c _ _ _ _ _ _ => some c
  | .sbcRegShift c _ _ _ _ _ _ => some c
  | .rscRegShift c _ _ _ _ _ _ => some c
  | .undefMisc01000010 c _ _ _ _ _ _ => some c
  | .tstRegShift c _ _ _ _ _ => some c
  | .bx c _ _ => some c
  | .undefMisc01200030 c _ _ _ _ => some c
  | .undefMisc01200050 c _ _ _ _ _ => some c
  | .teqRegShift c _ _ _ _ _ => some c
  | .undefMisc01400010 c _ _ _ _ _ _ _ => some c
  | .cmpRegShift c _ _ _ _ _ => some c
  | .cmnRegShift c _ _ _ _ _ => some c
  | .orrRegShift c _ _ _ _ _ _ => some c
  | .movRegShift c _ _ _ _ _ _ => some c
  | .bicRegShift c _ _ _ _ _ _ => some c
  | .mvnRegShift c _ _ _ _ _ _ => some c
  | .mul c _ _ _ _ _ => some c
  | .mla c _ _ _ _ _ => some c
  | .undefMulSwap00400090 c _ _ _ _ _ _ => some c
  | .umull c _ _ _ _ _ => some c
  | .umlal c _ _ _ _ _ => some c
  | .smull c _ _ _ _ _ => some c
  | .smlal c _ _ _ _ _ => some c
  | .swp c _ _ _ _ => some c
  | .swpb c _ _ _ _ => some c
  | .undefMulSwap01100090 c _ _ _ _ _ => some c
  | .undefMulSwap01200090 c _ _ _ _ _ _ => some c
  | .undefMulSwap01800090 c _ _ _ _ _ _ _ => some c
  | .strhReg c _ _ _ _ _ _ _ => some c
  | .ldrhReg c _ _ _ _ _ _ _ => some c
  | .strhImm c _ _ _ _ _ _ _ => some c
  | .ldrhImm c _ _ _ _ _ _ _ => some c
  | .undefHalfStore c _ _ _ _ _ _ _ _ _ => some c
  | .ldrsbReg c _ _ _ _ _ _ _ => some c
  | .ldrshReg c _ _ _ _ _ _ _ => some c
  | .ldrsbImm c _ _ _ _ _ _ _ => some c
  | .ldrshImm c _ _ _ _ _ _ _ => some c
  | .andImm c _ _ _ _ _ => some c
  | .eorImm c _ _ _ _ _ => some c
  | .subImm c _ _ _ _ _ => some c
  | .rsbImm c _ _ _ _ _ => some c
  | .addImm c _ _ _ _ _ => some c
  | .adcImm c _ _ _ _ _ => some c
  | .sbcImm c _ _ _ _ _ => some c
  | .rscImm c _ _ _ _ _ => some c
  | .undefTstImm c _ _ _ _ _ _ _ _ _ => some c
  | .tstImm c _ _ _ _ => some c
  | .cmpImm c _ _ _ _ => some c
  | .msrImm c _ _ _ _ _ => some c
  | .teqImm c _ _ _ _ => some c
  | .cmnImm c _ _ _ _ => some c
  | .orrImm c _ _ _ _ _ => some c
  | .movImm c _ _ _ _ _ => some c
  | .bicImm c _ _ _ _ _ => some c
  | .mvnImm c _ _ _ _ _ => some c
  | .strImmPost c _ _ _ _ => some c
  | .ldrImmPost c _ _ _ _ => some c
  | .strtImm c _ _ _ _ => some c
  | .ldrtImm c _ _ _ _ => some c
  | .strbImmPost c _ _ _ _ => some c
  | .ldrbImmPost c _ _ _ _ => some c
  | .strbtImm c _ _ _ _ => some c
  | .ldrbtImm c _ _ _ _ => some c
  | .strImmPre c _ _ _ _ _ => some c
  | .ldrImmPre c _ _ _ _ _ => some c
  | .strbImmPre c _ _ _ _ _ => some c
  | .ldrbImmPre c _ _ _ _ _ => some c
  | .strRegPost c _ _ _ _ _ _ => some c
  | .ldrRegPost c _ _ _ _ _ _ => some c
  | .strtReg c _ _ _ _ _ _ => some c
  | .ldrtReg c _ _ _ _ _ _ => some c
  | .strbRegPost c _ _ _ _ _ _ => some c
  | .ldrbRegPost c _ _ _ _ _ _ => some c
  | .strbtReg c _ _ _ _ _ _ => some c
  | .ldrbtReg c _ _ _ _ _ _ => some c
  | .strRegPre c _ _ _ _ _ _ _ => some c
  | .ldrRegPre c _ _ _ _ _ _ _ => some c
  | .strbRegPre c _ _ _ _ _ _ _ => some c
  | .ldrbRegPre c _ _ _ _ _ _ _ => some c
  | .undefArch c _ _ _ _ _ _ _ _ _ _ _ _ => some c
  | .stm c _ _ _ _ _ _ => some c
  | .ldm c _ _ _ _ _ _ => some c
  | .b c _ => some c
  | .bl c _ => some c
  | .stc c _ _ _ _ _ _ _ _ => some c
  | .ldc c _ _ _ _ _ _ _ _ => some c
  | .cdp c _ _ _ _ _ _ => some c
  | .mcr c _ _ _ _ _ _ => some c
  | .mrc c _ _ _ _ _ _ => some c
  | .swi c _ => some c
  | _ => none

/-- The instruction is of the selected set, its condition passes (30_encoding.md R124), and its encoding has no defect. -/
def runs (i : Instr) (s : State) : Bool :=
  (match condOf i with
    | some c => !s.cpsr.t && c != .nv && condHolds c s.cpsr
    | none => s.cpsr.t) && i.wellFormed

/-- It runs, and no register of `rs` meets the user-bank hazard (10_state.md R45 (f)). -/
def ready (i : Instr) (s : State) (rs : List Reg) : Bool := runs i s && !bankHazard s rs

/-! ## Results in exact arithmetic (41_arm_data_processing.md R211..R228) -/

/-- The logical operations. -/
def isLogical : DpOp → Bool
  | .and => true | .eor => true | .tst => true | .teq => true | .orr => true | .mov => true | .bic => true | .mvn => true
  | .sub => false | .rsb => false | .add => false | .adc => false | .sbc => false | .rsc => false | .cmp => false
  | .cmn => false

/-- The additions among the arithmetic operations; the others subtract. -/
def isAddition : DpOp → Bool
  | .add => true | .adc => true | .cmn => true
  | .and => false | .eor => false | .tst => false | .teq => false | .orr => false | .mov => false | .bic => false
  | .mvn => false | .sub => false | .rsb => false | .sbc => false | .rsc => false | .cmp => false

/-- An arithmetic operation on integers: the operands as they are read, signed or unsigned; `c` is the carry flag. -/
def exactValue (op : DpOp) (x y : Int) (c : Bool) : Int :=
  match op with
  | .sub => x - y
  | .cmp => x - y
  | .rsb => y - x
  | .add => x + y
  | .cmn => x + y
  | .adc => x + y + (if c then 1 else 0)
  | .sbc => x - y - (if c then 0 else 1)
  | .rsc => y - x - (if c then 0 else 1)
  | .and => 0 | .eor => 0 | .tst => 0 | .teq => 0 | .orr => 0 | .mov => 0 | .bic => 0 | .mvn => 0

/-- The 32-bit result. -/
def specResult (op : DpOp) (a b : Word) (c : Bool) : Word :=
  match op with
  | .and => a &&& b
  | .tst => a &&& b
  | .eor => a ^^^ b
  | .teq => a ^^^ b
  | .orr => a ||| b
  | .mov => b
  | .bic => a &&& ~~~b
  | .mvn => ~~~b
  | .sub => a - b
  | .cmp => a - b
  | .rsb => b - a
  | .add => a + b
  | .cmn => a + b
  | .adc => a + b + (if c then 1 else 0)
  | .sbc => a - b - (if c then 0 else 1)
  | .rsc => b - a - (if c then 0 else 1)

/-- C of an arithmetic operation: carry out of an addition, no borrow of a subtraction. -/
def specCarry (op : DpOp) (a b : Word) (c : Bool) : Bool :=
  if isAddition op then decide ((2 : Int) ^ 32 ≤ exactValue op a.toNat b.toNat c)
  else decide (0 ≤ exactValue op a.toNat b.toNat c)

/-- V of an arithmetic operation: the signed result does not fit in 32 bits. -/
def specOverflow (op : DpOp) (a b : Word) (c : Bool) : Bool :=
  decide (exactValue op a.toInt b.toInt c < -(2 ^ 31) ∨ 2 ^ 31 ≤ exactValue op a.toInt b.toInt c)

/-- CPSR with the flags of an operation; `sc` is the shifter's carry. -/
def specFlags (op : DpOp) (a b : Word) (sc : Bool) (p : Psr) : Psr :=
  let r := specResult op a b p.c
  if isLogical op then { p with n := r.getLsbD 31, z := decide (r = 0), c := sc }
  else { p with n := r.getLsbD 31, z := decide (r = 0), c := specCarry op a b p.c, v := specOverflow op a b p.c }

/-! ## Exceptions and status words -/

/-- What an exception entry leaves (60_exceptions.md R495): the link register and the SPSR of the target mode, the new CPSR, R15 at
the vector with no fetch contiguous to it, and nothing else changed. The reserved bits of the saved CPSR are drawn (10_state.md R46). -/
structure Entered (m : Mode) (link : PhysReg) (n : SpsrName) (vec ret : Word) (s t : State) : Prop where
  linked : readPhys t link = ret
  saved : ∃ reserved, readSpsr t n = psrWord s.cpsr reserved
  cpsr : t.cpsr = { s.cpsr with mode := m, t := false, i := true }
  pc : t.pc = vec
  hazard : t.userBankHazard = false
  fetch : t.lastFetch = none
  regs : SameRegs [link] s t
  spsrs : SameSpsrs [n] s t
  mem : SameMemory s t
  host : SameHostState s t

/-- The CPSR a saved word stands for; none where its mode field decodes to no mode (10_state.md R42). -/
def psrOfWord (v : Word) : Option Psr :=
  match modeOfBits (v.extractLsb' 0 5) with
  | none => none
  | some m =>
    some { n := v.getLsbD 31, z := v.getLsbD 30, c := v.getLsbD 29, v := v.getLsbD 28,
           i := v.getLsbD 7, f := v.getLsbD 6, t := v.getLsbD 5, mode := m }

/-- CPSR with the flags of bits 31:28 of a word where the f field is selected (10_state.md R41). -/
def flagsOf (p : Psr) (v : Word) (fm : BitVec 4) : Psr :=
  if fm.getLsbD 3 then { p with n := v.getLsbD 31, z := v.getLsbD 30, c := v.getLsbD 29, v := v.getLsbD 28 } else p

/-! ## The families -/

/-- A data-processing instruction (30_encoding.md R125). -/
structure DpForm where
  op : DpOp
  sf : Bool
  rn : Reg
  rd : Reg
  o : Operand2
  deriving DecidableEq, Repr

/-- The registers it accesses through `x[i]`: Rn but for MOV and MVN, Operand2's, Rd but for the tests. -/
def DpForm.regs (f : DpForm) : List Reg :=
  (if f.op.isMove then [] else [f.rn]) ++ f.o.regs ++ (if f.op.isTest then [] else [f.rd])

/-- `a` of 41_arm_data_processing.md R210. -/
def DpForm.first (f : DpForm) (s : State) : Word := operandReg s f.rn f.o.pcOffset

/-- `op2` of 41_arm_data_processing.md R210. -/
def DpForm.second (f : DpForm) (s : State) : Word := (operand2 s f.o).1

/-- The value the operation gives. -/
def DpForm.value (f : DpForm) (s : State) : Word := specResult f.op (f.first s) (f.second s) s.cpsr.c

/-- CPSR with the operation's flags. -/
def DpForm.flags (f : DpForm) (s : State) : Psr :=
  specFlags f.op (f.first s) (f.second s) (operand2 s f.o).2 s.cpsr

/-- The 48 data-processing instructions. -/
def dpForm (i : Instr) : Option DpForm :=
  match i with
  | .andImmShift _ sf rn rd amt k rm => some ⟨.and, sf, rn, rd, (.immShift amt k rm)⟩
  | .andRegShift _ sf rn rd rs k rm => some ⟨.and, sf, rn, rd, (.regShift rs k rm)⟩
  | .andImm _ sf rn rd rot imm => some ⟨.and, sf, rn, rd, (.imm rot imm)⟩
  | .eorImmShift _ sf rn rd amt k rm => some ⟨.eor, sf, rn, rd, (.immShift amt k rm)⟩
  | .eorRegShift _ sf rn rd rs k rm => some ⟨.eor, sf, rn, rd, (.regShift rs k rm)⟩
  | .eorImm _ sf rn rd rot imm => some ⟨.eor, sf, rn, rd, (.imm rot imm)⟩
  | .subImmShift _ sf rn rd amt k rm => some ⟨.sub, sf, rn, rd, (.immShift amt k rm)⟩
  | .subRegShift _ sf rn rd rs k rm => some ⟨.sub, sf, rn, rd, (.regShift rs k rm)⟩
  | .subImm _ sf rn rd rot imm => some ⟨.sub, sf, rn, rd, (.imm rot imm)⟩
  | .rsbImmShift _ sf rn rd amt k rm => some ⟨.rsb, sf, rn, rd, (.immShift amt k rm)⟩
  | .rsbRegShift _ sf rn rd rs k rm => some ⟨.rsb, sf, rn, rd, (.regShift rs k rm)⟩
  | .rsbImm _ sf rn rd rot imm => some ⟨.rsb, sf, rn, rd, (.imm rot imm)⟩
  | .addImmShift _ sf rn rd amt k rm => some ⟨.add, sf, rn, rd, (.immShift amt k rm)⟩
  | .addRegShift _ sf rn rd rs k rm => some ⟨.add, sf, rn, rd, (.regShift rs k rm)⟩
  | .addImm _ sf rn rd rot imm => some ⟨.add, sf, rn, rd, (.imm rot imm)⟩
  | .adcImmShift _ sf rn rd amt k rm => some ⟨.adc, sf, rn, rd, (.immShift amt k rm)⟩
  | .adcRegShift _ sf rn rd rs k rm => some ⟨.adc, sf, rn, rd, (.regShift rs k rm)⟩
  | .adcImm _ sf rn rd rot imm => some ⟨.adc, sf, rn, rd, (.imm rot imm)⟩
  | .sbcImmShift _ sf rn rd amt k rm => some ⟨.sbc, sf, rn, rd, (.immShift amt k rm)⟩
  | .sbcRegShift _ sf rn rd rs k rm => some ⟨.sbc, sf, rn, rd, (.regShift rs k rm)⟩
  | .sbcImm _ sf rn rd rot imm => some ⟨.sbc, sf, rn, rd, (.imm rot imm)⟩
  | .rscImmShift _ sf rn rd amt k rm => some ⟨.rsc, sf, rn, rd, (.immShift amt k rm)⟩
  | .rscRegShift _ sf rn rd rs k rm => some ⟨.rsc, sf, rn, rd, (.regShift rs k rm)⟩
  | .rscImm _ sf rn rd rot imm => some ⟨.rsc, sf, rn, rd, (.imm rot imm)⟩
  | .tstImmShift _ rn rd amt k rm => some ⟨.tst, true, rn, rd, (.immShift amt k rm)⟩
  | .tstRegShift _ rn rd rs k rm => some ⟨.tst, true, rn, rd, (.regShift rs k rm)⟩
  | .tstImm _ rn rd rot imm => some ⟨.tst, true, rn, rd, (.imm rot imm)⟩
  | .teqImmShift _ rn rd amt k rm => some ⟨.teq, true, rn, rd, (.immShift amt k rm)⟩
  | .teqRegShift _ rn rd rs k rm => some ⟨.teq, true, rn, rd, (.regShift rs k rm)⟩
  | .teqImm _ rn rd rot imm => some ⟨.teq, true, rn, rd, (.imm rot imm)⟩
  | .cmpImmShift _ rn rd amt k rm => some ⟨.cmp, true, rn, rd, (.immShift amt k rm)⟩
  | .cmpRegShift _ rn rd rs k rm => some ⟨.cmp, true, rn, rd, (.regShift rs k rm)⟩
  | .cmpImm _ rn rd rot imm => some ⟨.cmp, true, rn, rd, (.imm rot imm)⟩
  | .cmnImmShift _ rn rd amt k rm => some ⟨.cmn, true, rn, rd, (.immShift amt k rm)⟩
  | .cmnRegShift _ rn rd rs k rm => some ⟨.cmn, true, rn, rd, (.regShift rs k rm)⟩
  | .cmnImm _ rn rd rot imm => some ⟨.cmn, true, rn, rd, (.imm rot imm)⟩
  | .orrImmShift _ sf rn rd amt k rm => some ⟨.orr, sf, rn, rd, (.immShift amt k rm)⟩
  | .orrRegShift _ sf rn rd rs k rm => some ⟨.orr, sf, rn, rd, (.regShift rs k rm)⟩
  | .orrImm _ sf rn rd rot imm => some ⟨.orr, sf, rn, rd, (.imm rot imm)⟩
  | .movImmShift _ sf rn rd amt k rm => some ⟨.mov, sf, rn, rd, (.immShift amt k rm)⟩
  | .movRegShift _ sf rn rd rs k rm => some ⟨.mov, sf, rn, rd, (.regShift rs k rm)⟩
  | .movImm _ sf rn rd rot imm => some ⟨.mov, sf, rn, rd, (.imm rot imm)⟩
  | .bicImmShift _ sf rn rd amt k rm => some ⟨.bic, sf, rn, rd, (.immShift amt k rm)⟩
  | .bicRegShift _ sf rn rd rs k rm => some ⟨.bic, sf, rn, rd, (.regShift rs k rm)⟩
  | .bicImm _ sf rn rd rot imm => some ⟨.bic, sf, rn, rd, (.imm rot imm)⟩
  | .mvnImmShift _ sf rn rd amt k rm => some ⟨.mvn, sf, rn, rd, (.immShift amt k rm)⟩
  | .mvnRegShift _ sf rn rd rs k rm => some ⟨.mvn, sf, rn, rd, (.regShift rs k rm)⟩
  | .mvnImm _ sf rn rd rot imm => some ⟨.mvn, sf, rn, rd, (.imm rot imm)⟩
  | _ => none

/-- An MSR: which PSR, the field mask, the value, the registers it accesses (42_arm_psr_multiply_swap.md R251,
R252). -/
structure MsrForm where
  r : Bool
  fm : BitVec 4
  v : Word
  regs : List Reg
  deriving DecidableEq, Repr

/-- The two MSR instructions. -/
def msrForm (i : Instr) (s : State) : Option MsrForm :=
  match i with
  | .msrReg _ r fm _ _ rm => some ⟨r, fm, readReg s rm, [rm]⟩
  | .msrImm _ r fm _ rot imm => some ⟨r, fm, ((imm.setWidth 32 : Word)).rotateRight (2 * rot.toNat), []⟩
  | _ => none

/-- MUL or MLA (42_arm_psr_multiply_swap.md R254, R255): `rn` only where it accumulates. -/
structure MulForm where
  sf : Bool
  rd : Reg
  rs : Reg
  rm : Reg
  rn : Option Reg
  deriving DecidableEq, Repr

/-- The two 32-bit multiplies. -/
def mulForm (i : Instr) : Option MulForm :=
  match i with
  | .mul _ sf rd _ rs rm => some ⟨sf, rd, rs, rm, none⟩
  | .mla _ sf rd rn rs rm => some ⟨sf, rd, rs, rm, some rn⟩
  | _ => none

/-- A long multiply (42_arm_psr_multiply_swap.md R256..R259). -/
structure LongForm where
  signed : Bool
  acc : Bool
  sf : Bool
  rdHi : Reg
  rdLo : Reg
  rs : Reg
  rm : Reg
  deriving DecidableEq, Repr

/-- The four long multiplies. -/
def longForm (i : Instr) : Option LongForm :=
  match i with
  | .umull _ sf rdHi rdLo rs rm => some ⟨false, false, sf, rdHi, rdLo, rs, rm⟩
  | .umlal _ sf rdHi rdLo rs rm => some ⟨false, true, sf, rdHi, rdLo, rs, rm⟩
  | .smull _ sf rdHi rdLo rs rm => some ⟨true, false, sf, rdHi, rdLo, rs, rm⟩
  | .smlal _ sf rdHi rdLo rs rm => some ⟨true, true, sf, rdHi, rdLo, rs, rm⟩
  | _ => none

/-- SWP or SWPB (42_arm_psr_multiply_swap.md R260, R261). -/
structure SwapForm where
  byte : Bool
  rn : Reg
  rd : Reg
  rm : Reg
  deriving DecidableEq, Repr

/-- The two swaps. -/
def swapForm (i : Instr) : Option SwapForm :=
  match i with
  | .swp _ rn rd _ rm => some ⟨false, rn, rd, rm⟩
  | .swpb _ rn rd _ rm => some ⟨true, rn, rd, rm⟩
  | _ => none

/-- A single load: kind, address, destination, the base with its written-back value where there is one, the
registers it accesses through `x[i]`. -/
structure LoadForm where
  kind : LoadKind
  addr : Word
  rd : Reg
  base : Option (Reg × Word)
  regs : List Reg
  deriving DecidableEq, Repr

/-- A single store: width, address, value, the base with its written-back value where there is one, the
registers it accesses through `x[i]`. -/
structure StoreForm where
  width : Width
  addr : Word
  value : Word
  base : Option (Reg × Word)
  regs : List Reg
  deriving DecidableEq, Repr

/-- An ARM load (43_arm_load_store.md R290, R300). -/
def armLoad (s : State) (k : LoadKind) (x : Indexing) (rn rd : Reg) (o : Offset) : LoadForm :=
  ⟨k, transferAddr s x rn o, rd, if x.writeback then some (rn, offsetAddr s x rn o) else none, rn :: rd :: o.regs⟩

/-- An ARM store; R15 stores instr_addr + 12 (43_arm_load_store.md R290, R293, R300). -/
def armStore (s : State) (w : Width) (x : Indexing) (rn rd : Reg) (o : Offset) : StoreForm :=
  ⟨w, transferAddr s x rn o, if rd = 15 then s.pc + 12 else readReg s rd,
    if x.writeback then some (rn, offsetAddr s x rn o) else none, rn :: rd :: o.regs⟩

/-- A Thumb load of a low register (46_thumb_load_store.md R420). -/
def thumbLoadOf (k : LoadKind) (a : Word) (rd : LowReg) (regs : List Reg) : LoadForm :=
  ⟨k, a, lowReg rd, none, regs⟩

/-- A Thumb store of a low register (46_thumb_load_store.md R420). -/
def thumbStoreOf (s : State) (w : Width) (a : Word) (rd : LowReg) (regs : List Reg) : StoreForm :=
  ⟨w, a, readReg s (lowReg rd), none, regs⟩

/-- `x[r]` of a low register. -/
def low (s : State) (r : LowReg) : Word := readReg s (lowReg r)

/-- The single loads of both sets: 18 ARM, 10 Thumb. -/
def loadForm (i : Instr) (s : State) : Option LoadForm :=
  match i with
  | .ldrImmPost _ u rn rd off => some (armLoad s .word ⟨false, u, false⟩ rn rd (.imm (off.setWidth 32)))
  | .ldrtImm _ u rn rd off => some (armLoad s .word ⟨false, u, true⟩ rn rd (.imm (off.setWidth 32)))
  | .ldrbImmPost _ u rn rd off => some (armLoad s .byte ⟨false, u, false⟩ rn rd (.imm (off.setWidth 32)))
  | .ldrbtImm _ u rn rd off => some (armLoad s .byte ⟨false, u, true⟩ rn rd (.imm (off.setWidth 32)))
  | .ldrImmPre _ u w rn rd off => some (armLoad s .word ⟨true, u, w⟩ rn rd (.imm (off.setWidth 32)))
  | .ldrbImmPre _ u w rn rd off => some (armLoad s .byte ⟨true, u, w⟩ rn rd (.imm (off.setWidth 32)))
  | .ldrRegPost _ u rn rd amt k rm => some (armLoad s .word ⟨false, u, false⟩ rn rd (.scaled amt k rm))
  | .ldrtReg _ u rn rd amt k rm => some (armLoad s .word ⟨false, u, true⟩ rn rd (.scaled amt k rm))
  | .ldrbRegPost _ u rn rd amt k rm => some (armLoad s .byte ⟨false, u, false⟩ rn rd (.scaled amt k rm))
  | .ldrbtReg _ u rn rd amt k rm => some (armLoad s .byte ⟨false, u, true⟩ rn rd (.scaled amt k rm))
  | .ldrRegPre _ u w rn rd amt k rm => some (armLoad s .word ⟨true, u, w⟩ rn rd (.scaled amt k rm))
  | .ldrbRegPre _ u w rn rd amt k rm => some (armLoad s .byte ⟨true, u, w⟩ rn rd (.scaled amt k rm))
  | .ldrhReg _ p u w rn rd _ rm => some (armLoad s .half ⟨p, u, w⟩ rn rd (.reg rm))
  | .ldrhImm _ p u w rn rd immHi immLo => some (armLoad s .half ⟨p, u, w⟩ rn rd (.imm ((immHi ++ immLo).setWidth 32)))
  | .ldrsbReg _ p u w rn rd _ rm => some (armLoad s .signedByte ⟨p, u, w⟩ rn rd (.reg rm))
  | .ldrsbImm _ p u w rn rd immHi immLo => some (armLoad s .signedByte ⟨p, u, w⟩ rn rd (.imm ((immHi ++ immLo).setWidth 32)))
  | .ldrshReg _ p u w rn rd _ rm => some (armLoad s .signedHalf ⟨p, u, w⟩ rn rd (.reg rm))
  | .ldrshImm _ p u w rn rd immHi immLo => some (armLoad s .signedHalf ⟨p, u, w⟩ rn rd (.imm ((immHi ++ immLo).setWidth 32)))
  | .tLdrPc rd off => some (thumbLoadOf .word (alignWord (s.pc + 4) + ((off.setWidth 32 : Word) <<< 2)) rd [])
  | .tLdrReg ro rb rd => some (thumbLoadOf .word (low s rb + low s ro) rd [])
  | .tLdrbReg ro rb rd => some (thumbLoadOf .byte (low s rb + low s ro) rd [])
  | .tLdrhReg ro rb rd => some (thumbLoadOf .half (low s rb + low s ro) rd [])
  | .tLdrsbReg ro rb rd => some (thumbLoadOf .signedByte (low s rb + low s ro) rd [])
  | .tLdrshReg ro rb rd => some (thumbLoadOf .signedHalf (low s rb + low s ro) rd [])
  | .tLdrImm off rb rd => some (thumbLoadOf .word (low s rb + ((off.setWidth 32 : Word) <<< 2)) rd [])
  | .tLdrbImm off rb rd => some (thumbLoadOf .byte (low s rb + off.setWidth 32) rd [])
  | .tLdrhImm off rb rd => some (thumbLoadOf .half (low s rb + ((off.setWidth 32 : Word) <<< 1)) rd [])
  | .tLdrSp rd off => some (thumbLoadOf .word (readReg s 13 + ((off.setWidth 32 : Word) <<< 2)) rd [13])
  | _ => none

/-- The single stores of both sets: 14 ARM, 7 Thumb. -/
def storeForm (i : Instr) (s : State) : Option StoreForm :=
  match i with
  | .strImmPost _ u rn rd off => some (armStore s .word ⟨false, u, false⟩ rn rd (.imm (off.setWidth 32)))
  | .strtImm _ u rn rd off => some (armStore s .word ⟨false, u, true⟩ rn rd (.imm (off.setWidth 32)))
  | .strbImmPost _ u rn rd off => some (armStore s .byte ⟨false, u, false⟩ rn rd (.imm (off.setWidth 32)))
  | .strbtImm _ u rn rd off => some (armStore s .byte ⟨false, u, true⟩ rn rd (.imm (off.setWidth 32)))
  | .strImmPre _ u w rn rd off => some (armStore s .word ⟨true, u, w⟩ rn rd (.imm (off.setWidth 32)))
  | .strbImmPre _ u w rn rd off => some (armStore s .byte ⟨true, u, w⟩ rn rd (.imm (off.setWidth 32)))
  | .strRegPost _ u rn rd amt k rm => some (armStore s .word ⟨false, u, false⟩ rn rd (.scaled amt k rm))
  | .strtReg _ u rn rd amt k rm => some (armStore s .word ⟨false, u, true⟩ rn rd (.scaled amt k rm))
  | .strbRegPost _ u rn rd amt k rm => some (armStore s .byte ⟨false, u, false⟩ rn rd (.scaled amt k rm))
  | .strbtReg _ u rn rd amt k rm => some (armStore s .byte ⟨false, u, true⟩ rn rd (.scaled amt k rm))
  | .strRegPre _ u w rn rd amt k rm => some (armStore s .word ⟨true, u, w⟩ rn rd (.scaled amt k rm))
  | .strbRegPre _ u w rn rd amt k rm => some (armStore s .byte ⟨true, u, w⟩ rn rd (.scaled amt k rm))
  | .strhReg _ p u w rn rd _ rm => some (armStore s .half ⟨p, u, w⟩ rn rd (.reg rm))
  | .strhImm _ p u w rn rd immHi immLo => some (armStore s .half ⟨p, u, w⟩ rn rd (.imm ((immHi ++ immLo).setWidth 32)))
  | .tStrReg ro rb rd => some (thumbStoreOf s .word (low s rb + low s ro) rd [])
  | .tStrbReg ro rb rd => some (thumbStoreOf s .byte (low s rb + low s ro) rd [])
  | .tStrhReg ro rb rd => some (thumbStoreOf s .half (low s rb + low s ro) rd [])
  | .tStrImm off rb rd => some (thumbStoreOf s .word (low s rb + ((off.setWidth 32 : Word) <<< 2)) rd [])
  | .tStrbImm off rb rd => some (thumbStoreOf s .byte (low s rb + off.setWidth 32) rd [])
  | .tStrhImm off rb rd => some (thumbStoreOf s .half (low s rb + ((off.setWidth 32 : Word) <<< 1)) rd [])
  | .tStrSp rd off => some (thumbStoreOf s .word (readReg s 13 + ((off.setWidth 32 : Word) <<< 2)) rd [13])
  | _ => none

/-- A block transfer of the current bank: the base register, whether it is written back, the first address, the
new base, the registers in order, how far ahead R15 is stored. -/
structure BlockForm where
  rn : Reg
  w : Bool
  start : Word
  newBase : Word
  regs : List Reg
  pcOff : Word
  deriving DecidableEq, Repr

/-- An ARM block transfer (43_arm_load_store.md R305, R311). -/
def armBlock (s : State) (p u w : Bool) (rn : Reg) (list : BitVec 16) : BlockForm :=
  ⟨rn, w, blockStart p u (readReg s rn) list, blockNewBase u (readReg s rn) list, transferredRegs list, 12⟩

/-- A Thumb block transfer, always written back (46_thumb_load_store.md R442..R446). -/
def thumbBlock (s : State) (p u : Bool) (rn : Reg) (list : BitVec 16) : BlockForm :=
  ⟨rn, true, blockStart p u (readReg s rn) list, blockNewBase u (readReg s rn) list, transferredRegs list, 6⟩

/-- The address of the k-th word of a block transfer (43_arm_load_store.md R305, 20_memory.md R89). -/
def BlockForm.wordAddr (f : BlockForm) (k : Nat) : Word := alignWord (f.start + BitVec.ofNat 32 (4 * k))

/-- The word read for the k-th register of a block load: what the memory interface answers after the k reads before
it (20_memory.md R89, R92). -/
def BlockForm.wordRead (f : BlockForm) (s : State) (k : Nat) : Word :=
  busRead (noteBlockLoads s false f.start (f.regs.take k)) .word (f.wordAddr k)

/-- Where the word of the k-th register was ordinary memory before the transfer, it is `v` after it; where the
platform answers itself, ordinary memory there is as it was (20_memory.md R80, R89). -/
def BlockForm.WordStored (f : BlockForm) (s t : State) (k : Nat) (v : Word) : Prop :=
  Stored .word (f.wordAddr k) v s t

/-- The value stored for the k-th register: R15 reads ahead, a written-back base that is not the lowest register is
stored as it will be (43_arm_load_store.md R307, R309; 46_thumb_load_store.md R444, R446). -/
def BlockForm.storedValue (f : BlockForm) (s : State) (k : Nat) (r : Reg) : Word :=
  if r = 15 then s.pc + f.pcOff else if r = f.rn ∧ f.w = true ∧ k ≠ 0 then f.newBase else readReg s r

/-- LDM with S = 0, POP, LDMIA. -/
def blockLoadForm (i : Instr) (s : State) : Option BlockForm :=
  match i with
  | .ldm _ p u sf w rn list => if sf then none else some (armBlock s p u w rn list)
  | .tPop r list => some (thumbBlock s false true 13 (list.setWidth 16 ||| (if r then 0x8000 else 0)))
  | .tLdmia rb list => some (thumbBlock s false true (lowReg rb) (list.setWidth 16))
  | _ => none

/-- STM with S = 0, PUSH, STMIA. -/
def blockStoreForm (i : Instr) (s : State) : Option BlockForm :=
  match i with
  | .stm _ p u sf w rn list => if sf then none else some (armBlock s p u w rn list)
  | .tPush r list => some (thumbBlock s true false 13 (list.setWidth 16 ||| (if r then 0x4000 else 0)))
  | .tStmia rb list => some (thumbBlock s false true (lowReg rb) (list.setWidth 16))
  | _ => none

/-- A Thumb ALU instruction of formats 1 to 4 but MUL: its destination (none for the tests), and the data-processing
operation it is with its operands and shifter carry (45_thumb_alu.md R370). A shift is a move of the shifted value. -/
structure ThumbAlu where
  rd : Option LowReg
  op : DpOp
  a : Word
  b : Word
  sc : Bool
  deriving DecidableEq, Repr

/-- A shift as a move of (value, carry). -/
def thumbShift (rd : LowReg) (out : Word × Bool) : ThumbAlu := ⟨some rd, .mov, 0, out.1, out.2⟩

/-- Formats 1 to 4 but MUL: 26 instructions. -/
def thumbAlu (i : Instr) (s : State) : Option ThumbAlu :=
  match i with
  | .tLslImm off rs rd => some (thumbShift rd (shiftByImm .lsl (low s rs) off s.cpsr.c))
  | .tLsrImm off rs rd => some (thumbShift rd (shiftByImm .lsr (low s rs) off s.cpsr.c))
  | .tAsrImm off rs rd => some (thumbShift rd (shiftByImm .asr (low s rs) off s.cpsr.c))
  | .tAddReg rn rs rd => some ⟨some rd, .add, low s rs, low s rn, s.cpsr.c⟩
  | .tSubReg rn rs rd => some ⟨some rd, .sub, low s rs, low s rn, s.cpsr.c⟩
  | .tAddImm3 imm rs rd => some ⟨some rd, .add, low s rs, imm.setWidth 32, s.cpsr.c⟩
  | .tSubImm3 imm rs rd => some ⟨some rd, .sub, low s rs, imm.setWidth 32, s.cpsr.c⟩
  | .tMovImm rd imm => some ⟨some rd, .mov, 0, imm.setWidth 32, s.cpsr.c⟩
  | .tCmpImm rd imm => some ⟨none, .cmp, low s rd, imm.setWidth 32, s.cpsr.c⟩
  | .tAddImm8 rd imm => some ⟨some rd, .add, low s rd, imm.setWidth 32, s.cpsr.c⟩
  | .tSubImm8 rd imm => some ⟨some rd, .sub, low s rd, imm.setWidth 32, s.cpsr.c⟩
  | .tAnd rs rd => some ⟨some rd, .and, low s rd, low s rs, s.cpsr.c⟩
  | .tEor rs rd => some ⟨some rd, .eor, low s rd, low s rs, s.cpsr.c⟩
  | .tLslReg rs rd => some (thumbShift rd (shiftByReg .lsl (low s rd) (shiftAmount (low s rs)) s.cpsr.c))
  | .tLsrReg rs rd => some (thumbShift rd (shiftByReg .lsr (low s rd) (shiftAmount (low s rs)) s.cpsr.c))
  | .tAsrReg rs rd => some (thumbShift rd (shiftByReg .asr (low s rd) (shiftAmount (low s rs)) s.cpsr.c))
  | .tAdc rs rd => some ⟨some rd, .adc, low s rd, low s rs, s.cpsr.c⟩
  | .tSbc rs rd => some ⟨some rd, .sbc, low s rd, low s rs, s.cpsr.c⟩
  | .tRorReg rs rd => some (thumbShift rd (shiftByReg .ror (low s rd) (shiftAmount (low s rs)) s.cpsr.c))
  | .tTst rs rd => some ⟨none, .tst, low s rd, low s rs, s.cpsr.c⟩
  | .tNeg rs rd => some ⟨some rd, .sub, 0, low s rs, s.cpsr.c⟩
  | .tCmpReg rs rd => some ⟨none, .cmp, low s rd, low s rs, s.cpsr.c⟩
  | .tCmn rs rd => some ⟨none, .cmn, low s rd, low s rs, s.cpsr.c⟩
  | .tOrr rs rd => some ⟨some rd, .orr, low s rd, low s rs, s.cpsr.c⟩
  | .tBic rs rd => some ⟨some rd, .bic, low s rd, low s rs, s.cpsr.c⟩
  | .tMvn rs rd => some ⟨some rd, .mvn, 0, low s rs, s.cpsr.c⟩
  | _ => none

/-- Format 12: destination, value, the registers accessed (46_thumb_load_store.md R438, R439). -/
def thumbAddressForm (i : Instr) (s : State) : Option (LowReg × Word × List Reg) :=
  match i with
  | .tAddPc rd off => some (rd, alignWord (s.pc + 4) + ((off.setWidth 32 : Word) <<< 2), [])
  | .tAddSp rd off => some (rd, readReg s 13 + ((off.setWidth 32 : Word) <<< 2), [13])
  | _ => none

/-- Format 16: condition and target (47_thumb_branch.md R470). -/
def thumbBranchForm (i : Instr) (s : State) : Option (Cond × Word) :=
  match i with
  | .tBcondD0 cb off => some (condOfBits (0b0#1 ++ cb), s.pc + 4 + (off.signExtend 32 <<< 1))
  | .tBcondD8 cb off => some (condOfBits (0b10#2 ++ cb), s.pc + 4 + (off.signExtend 32 <<< 1))
  | .tBcondDC cb off => some (condOfBits (0b110#3 ++ cb), s.pc + 4 + (off.signExtend 32 <<< 1))
  | _ => none

/-- The ARM instructions that take the undefined-instruction trap: the coprocessor instructions and the UNDEFINED spaces
(44_arm_branch_system.md R344..R348). -/
def isUndefinedArm (i : Instr) : Bool :=
  match i with
  | .ldc .. => true
  | .stc .. => true
  | .cdp .. => true
  | .mcr .. => true
  | .mrc .. => true
  | .undefMisc01000020 .. => true
  | .undefMisc01000040 .. => true
  | .undefMisc01000080 .. => true
  | .undefMisc01000010 .. => true
  | .undefMisc01200030 .. => true
  | .undefMisc01200050 .. => true
  | .undefMisc01400010 .. => true
  | .undefMulSwap00400090 .. => true
  | .undefMulSwap01100090 .. => true
  | .undefMulSwap01200090 .. => true
  | .undefMulSwap01800090 .. => true
  | .undefHalfStore .. => true
  | .undefTstImm .. => true
  | .undefArch .. => true
  | _ => false

/-- The Thumb instructions that take it (47_thumb_branch.md R475). -/
def isUndefinedThumb (i : Instr) : Bool :=
  match i with
  | .tUndefB1 .. => true
  | .tUndefB8 .. => true
  | .tUndefB2 .. => true
  | .tUndefDE .. => true
  | .tUndefE8 .. => true
  | _ => false

/-- The condition passes, or there is none: what must hold before the encoding is checked (60_exceptions.md R499). -/
def passes (i : Instr) (s : State) : Bool :=
  match condOf i with
  | some c => c == .nv || condHolds c s.cpsr
  | none => true

/-- The classes (a) to (g) of 30_encoding.md R138, as patterns over bits 27:0. -/
def undefinedClass (w : Word) : Bool :=
  (w.extractLsb' 22 6 == 0b000001 && w.extractLsb' 4 4 == 0b1001)
    || (w.extractLsb' 24 4 == 0b0001 && w.extractLsb' 4 4 == 0b1001 && (w.getLsbD 23 || w.extractLsb' 20 2 != 0))
    || (w.extractLsb' 25 3 == 0b000 && !w.getLsbD 20 && w.getLsbD 7 && w.getLsbD 6 && w.getLsbD 4)
    || (w.extractLsb' 23 5 == 0b00010 && !w.getLsbD 20 && !(w.getLsbD 7 && w.getLsbD 4)
      && !(w.extractLsb' 4 4 == 0b0000 && !w.getLsbD 21) && !(w.extractLsb' 4 4 == 0b0000 && w.getLsbD 21)
      && !(w.extractLsb' 20 8 == 0b00010010 && w.extractLsb' 4 4 == 0b0001))
    || (w.extractLsb' 23 5 == 0b00110 && w.extractLsb' 20 2 == 0b00)
    || (w.extractLsb' 25 3 == 0b011 && w.getLsbD 4)
    || w.extractLsb' 25 3 == 0b110 || w.extractLsb' 24 4 == 0b1110

/-- The high bytes of the Thumb undefined space (30_encoding.md R159). -/
def undefinedHighByte (b : BitVec 8) : Bool :=
  (0xB1 ≤ b && b ≤ 0xB3) || (0xB6 ≤ b && b ≤ 0xBB) || b == 0xBE || b == 0xBF || b == 0xDE || (0xE8 ≤ b && b ≤ 0xEF)

/-- The base register of a transfer that writes it back. -/
def baseRegs (b : Option (Reg × Word)) : List Reg := (b.map Prod.fst).toList

/-- The registers a multiply accesses. -/
def MulForm.regs (f : MulForm) : List Reg := [f.rd, f.rs, f.rm] ++ f.rn.toList

/-- The value a multiply gives (42_arm_psr_multiply_swap.md R254, R255). -/
def MulForm.value (f : MulForm) (s : State) : Word :=
  BitVec.ofNat 32 ((readReg s f.rm).toNat * (readReg s f.rs).toNat
    + match f.rn with
      | some rn => (readReg s rn).toNat
      | none => 0)

/-- The registers a long multiply accesses. -/
def LongForm.regs (f : LongForm) : List Reg := [f.rdHi, f.rdLo, f.rs, f.rm]

/-- A register as the integer a long multiply takes it for. -/
def LongForm.operand (f : LongForm) (v : Word) : Int := if f.signed then v.toInt else v.toNat

/-- The 64-bit value a long multiply gives (42_arm_psr_multiply_swap.md R256..R259). -/
def LongForm.value (f : LongForm) (s : State) : BitVec 64 :=
  BitVec.ofInt 64 (f.operand (readReg s f.rm) * f.operand (readReg s f.rs)
    + if f.acc then ((readReg s f.rdHi).toNat * 2 ^ 32 + (readReg s f.rdLo).toNat : Int) else 0)

/-- The width of a swap. -/
def SwapForm.width (f : SwapForm) : Width := if f.byte then .byte else .word

/-- The load of a swap. -/
def SwapForm.kind (f : SwapForm) : LoadKind := if f.byte then .byte else .word

/-- The registers the instructions outside the forms above access through `x[i]`: status transfers, links, exchanges,
LDM and STM with S = 1, Thumb formats 5, 12 and 13 (10_state.md R45 (f)). -/
def accessedAlone (i : Instr) : Option (List Reg) :=
  match i with
  | .mrs _ _ _ rd _ _ => some [rd]
  | .msrReg _ _ _ _ _ rm => some [rm]
  | .bl _ _ => some [14]
  | .bx _ _ rm => some [rm]
  | .ldm _ _ _ sf _ rn list =>
    if sf then some (if 15 ∈ transferredRegs list then rn :: transferredRegs list else [rn]) else none
  | .stm _ _ _ sf _ rn _ => if sf then some [rn] else none
  | .tAddHi h1 h2 rs rd => some [highReg h1 rd, highReg h2 rs]
  | .tCmpHi h1 h2 rs rd => some [highReg h1 rd, highReg h2 rs]
  | .tMovHi h1 h2 rs rd => some [highReg h1 rd, highReg h2 rs]
  | .tBx _ h2 rs _ => some [highReg h2 rs]
  | .tAddSp _ _ => some [13]
  | .tSpAdd _ => some [13]
  | .tSpSub _ => some [13]
  | .tBlFirst _ => some [14]
  | .tBlSecond _ => some [14]
  | _ => none

/-- The registers an instruction accesses through `x[i]` (10_state.md R45 (f)); none is listed for an instruction that
accesses low registers alone, or no register. -/
def accessed (i : Instr) (s : State) : Option (List Reg) :=
  ((dpForm i).map DpForm.regs).or <| ((mulForm i).map MulForm.regs).or <| ((longForm i).map LongForm.regs).or <|
    ((swapForm i).map (fun f => [f.rn, f.rd, f.rm])).or <| ((loadForm i s).map LoadForm.regs).or <|
    ((storeForm i s).map StoreForm.regs).or <| ((blockLoadForm i s).map (fun f => f.rn :: f.regs)).or <|
    ((blockStoreForm i s).map (fun f => f.rn :: f.regs)).or (accessedAlone i)

/-- A read as the interface is asked for it, the answer left out (20_memory.md R80). -/
def readRequest (w : Width) (a : Word) (seq : Bool) : BusAccess := ⟨false, w, a, 0, seq, w == .word⟩

/-- A write as the interface is asked for it, with the low bits of its value (20_memory.md R80, R83). -/
def writeRequest (w : Width) (a v : Word) (seq : Bool) : BusAccess := ⟨true, w, a, w.cut v, seq, w == .word⟩

/-- An access without the answer of a read. -/
def request (x : BusAccess) : BusAccess := if x.write then x else { x with value := 0 }

/-- The reads of a block load: one word a register, in order, all but the first sequential
(70_reset_and_hazards.md R550). -/
def BlockForm.reads (f : BlockForm) : List BusAccess :=
  f.regs.zipIdx.map (fun x => readRequest .word (f.wordAddr x.2) (x.2 != 0))

/-- The writes of a block store of the given values, in the same order. -/
def BlockForm.writes (f : BlockForm) (value : Nat → Reg → Word) : List BusAccess :=
  f.regs.zipIdx.map (fun x => writeRequest .word (f.wordAddr x.2) (value x.2 x.1) (x.2 != 0))

/-- The value STM with S = 1 stores for a register: that of the User bank, R15 read ahead (43_arm_load_store.md R310). -/
def userStoredValue (s : State) (r : Reg) : Word := if r = 15 then s.pc + 12 else readUsrReg s r

/-- The data accesses an instruction makes, in order (20_memory.md R92): one for a single transfer, a read and a write
for a swap, one a register for a block transfer, none for any other. The first is non-sequential, and so is the
write of a swap (70_reset_and_hazards.md R550). -/
def dataAccesses (i : Instr) (s : State) : List BusAccess :=
  let load (k : LoadKind) (a : Word) : BusAccess :=
    readRequest (loadWidth k a) (alignTo (loadWidth k a) a) false
  let store (w : Width) (a v : Word) : BusAccess := writeRequest w (alignTo w a) v false
  ((((loadForm i s).map (fun f => [load f.kind f.addr])).or <|
    ((storeForm i s).map (fun f => [store f.width f.addr f.value])).or <|
    ((swapForm i).map (fun f => [load f.kind (readReg s f.rn), store f.width (readReg s f.rn) (readReg s f.rm)])).or <|
    ((blockLoadForm i s).map BlockForm.reads).or <|
    ((blockStoreForm i s).map (fun f => f.writes (f.storedValue s))).or <|
    match i with
    | .ldm _ p u _ w rn list => some (armBlock s p u w rn list).reads
    | .stm _ p u _ w rn list => some ((armBlock s p u w rn list).writes (fun _ => userStoredValue s))
    | _ => none)).getD []

/-- What R48 and R541 fix of the state after reset. -/
def FreshlyReset (t : State) : Prop :=
  t.cpsr.mode = .supervisor ∧ t.cpsr.i = true ∧ t.cpsr.f = true ∧ t.cpsr.t = false ∧ t.pc = 0
    ∧ t.lastFetch = none ∧ t.userBankHazard = false

/-- Memory, the platform and what the host owns are as they were (70_reset_and_hazards.md R541). -/
def OutsideKept (s t : State) : Prop :=
  SameHostState s t ∧ t.mem = s.mem ∧ t.platform = s.platform ∧ t.cycleBudget = s.cycleBudget

/-- The link register the trap of a SWI or undefined instruction writes; none for any other instruction. -/
def trapLink (i : Instr) : Option PhysReg :=
  match i with
  | .swi .. => some (.svc 1)
  | .tSwi .. => some (.svc 1)
  | j => if isUndefinedArm j || isUndefinedThumb j then some (.und 1) else none

/-- A branch and exchange to a target (44_arm_branch_system.md R342). -/
def Exchanged (target : Word) (s t : State) : Prop :=
  t.cpsr = { s.cpsr with t := target.getLsbD 0 }
    ∧ Jumped (target &&& (if target.getLsbD 0 then 0xFFFFFFFE else 0xFFFFFFFC)) t
    ∧ FlagFrame [] s t

/-- An operand of Thumb format 5: R15 reads 4 ahead (45_thumb_alu.md section 6). -/
def ahead (s : State) (r : Reg) : Word := if r = 15 then s.pc + 4 else readReg s r

/-- A format 5 destination written: R15 is a jump that stays in Thumb state (45_thumb_alu.md R398, R400). -/
def WrittenHigh (rd : Reg) (v : Word) (s t : State) : Prop :=
  (rd ≠ 15 → readReg t rd = v ∧ Advanced s t) ∧ (rd = 15 → Jumped (v &&& 0xFFFFFFFE) t)
    ∧ Frame (seen s [rd]) s t

end Sys2Proof.Claims
end

