-- ==== Sys2Proof/Machine/HostMoves.lean ====
section
/-! DEFINITION. What the host may do to the machine between calls (70_reset_and_hazards.md R541, R544, R545,
R548). The core does none of these in a step. -/

namespace Sys2Proof.Machine

open Sys2Proof

/-- `request_break()` (70_reset_and_hazards.md R544). -/
def requestBreak (s : State) : State := { s with breakFlag := true }

/-- The host clears the break flag to resume (70_reset_and_hazards.md R544). -/
def clearBreak (s : State) : State := { s with breakFlag := false }

/-- The host's predicate `is_breakpoint` (70_reset_and_hazards.md R545). -/
def setBreakpoints (s : State) (as : List Word) : State := { s with breakpoints := as }

/-- What the host may change at a boundary while a call of `execute` runs (70_reset_and_hazards.md R548): the
level of `irq_line`, the break flag, its own predicate `is_breakpoint`. -/
structure BoundaryInput where
  irqLine : Bool
  breakFlag : Bool
  breakpoints : List Word
  deriving DecidableEq, Repr

/-- The state with the host's inputs of a boundary (70_reset_and_hazards.md R548). -/
def applyInput (s : State) (x : BoundaryInput) : State :=
  { s with irqLine := x.irqLine, breakFlag := x.breakFlag, breakpoints := x.breakpoints }

/-- The inputs a host that changes nothing gives at every boundary. -/
def sameInput (s : State) : BoundaryInput := ⟨s.irqLine, s.breakFlag, s.breakpoints⟩

/-- The host drives `irq_line` (60_exceptions.md R493). -/
def driveIrq (s : State) (level : Bool) : State := { s with irqLine := level }

/-- `reset` with the parameter `reset_state` (70_reset_and_hazards.md R541): the registers and status of `r`
are installed, no fetch is contiguous, no hazard is open; memory and the host's own state stay. -/
def installReset (r s : State) : State :=
  { r with
    lastFetch := none, userBankHazard := false
    mem := s.mem, devices := s.devices, platform := s.platform
    irqLine := s.irqLine, breakFlag := s.breakFlag, breakpoints := s.breakpoints
    cycleBudget := s.cycleBudget, accessTable := s.accessTable, costRule := s.costRule
    bus := [], draws := s.draws }

/-- `reset` (70_reset_and_hazards.md R541, 10_state.md R48). -/
def hostReset (s : State) : State := installReset State.reset s

/-- The host writes a register (70_reset_and_hazards.md R548). DEDUCED (log 16): a write of R15 is a PC write of
R550, so the fetch after it is not sequential. -/
def hostWriteReg (s : State) (p : PhysReg) (v : Word) : State :=
  if p = .pc then { writePhys s p v with lastFetch := none } else writePhys s p v

/-- The host writes an SPSR (70_reset_and_hazards.md R548). -/
def hostWriteSpsr (s : State) (n : SpsrName) (v : Word) : State := setSpsr s n v

/-- The host writes CPSR; a `Psr` holds one of the seven modes, which is the host's duty
(70_reset_and_hazards.md R548, 10_state.md R32). -/
def hostWriteCpsr (s : State) (p : Psr) : State := { s with cpsr := p }

/-- The host, or another subsystem, writes a byte of memory between two calls (20_memory.md R95). -/
def hostWriteByte (s : State) (a : Word) (v : Byte) : State := { s with mem := setByteAt s.mem a v }

/-- The platform's own state moves between two calls (20_memory.md R95, 70_reset_and_hazards.md R548). -/
def movePlatform (s : State) (n : Nat) : State := { s with platform := n }

/-- The platform answers these addresses itself from now on (20_memory.md R93). -/
def mapDevices (s : State) (devices : List AddrRange) : State := { s with devices := devices }

/-- The host's `access_cycles` (20_memory.md R80). -/
def setAccessTable (s : State) (table : List AccessPrice) : State := { s with accessTable := table }

/-- The host's `cycle_cost` (70_reset_and_hazards.md R551). -/
def setCostRule (s : State) (rule : CostRule) : State := { s with costRule := rule }

end Sys2Proof.Machine
end

