-- ==== Sys2Proof/Machine/Execute.lean ====
section
/-! DEFINITION. `execute(cycle_budget)`, the core's entry point (70_reset_and_hazards.md R540, R543, R546, R548). -/

namespace Sys2Proof.Machine

open Sys2Proof

/-- What a call of `execute` gives: the residual budget with the state, or the fault that ended it. -/
abbrev CallResult := Host.Outcome (Int × State) Fault Refusal

/-- At most `fuel` passes of the dispatch loop, until the host holds the core. `env k` is what the host sets at
the k-th boundary from here on (70_reset_and_hazards.md R548). -/
def dispatch : Nat → (Nat → BoundaryInput) → State → CallResult
  | 0, _, s => .next (s.cycleBudget, s)
  | fuel + 1, env, s =>
    let s1 := applyInput s (env 0)
    if hostHolds s1 then .next (s1.cycleBudget, s1)
    else
      match step s1 with
      | .next t => dispatch fuel (fun k => env (k + 1)) t
      | .fault f => .fault f
      | .refused r => .refused r

/-- `execute(b)` with the host's inputs at the boundaries of the call (70_reset_and_hazards.md R543, R548): with b
not positive no step and no change; else the loop runs until it returns to the host. Each pass costs at
least one cycle, so b passes are enough. -/
def execute (env : Nat → BoundaryInput) (b : Int) (s : State) : CallResult :=
  if b ≤ 0 then .next (b, s) else dispatch b.toNat env { s with cycleBudget := b }

end Sys2Proof.Machine
end

