-- ==== Sys2Proof/Certificates/Slice0/Obligations.lean ====
section
/-! DEFINITION. The statements for the provers, in the order of OBLIGATIONS.json. -/

open Sys2Proof Sys2Proof.Machine Sys2Proof.Claims

/-- For every instruction of both sets, with every operand at every value its encoding has room for, decoding its
encoded word gives that instruction.
(30_encoding.md R122, 30_encoding.md R136, 30_encoding.md R139, 30_encoding.md R159) -/
def Obligations.DecodeEncode : Prop :=
  ∀ i : Instr, decode (encode i) = i

/-- For every 32-bit ARM word and every 16-bit Thumb halfword, encoding the instruction it decodes to gives the same
word: no bit of a word is dropped and no word decodes as another.
(30_encoding.md R136, 30_encoding.md R159) -/
def Obligations.EncodeDecode : Prop :=
  ∀ x : Code, encode (decode x) = x

/-- Ten words, each laid out field by field from the format tables, decode to the instruction the spec gives them:
ADDS R0,R1,R2; MOVS PC,LR; MSR CPSR_c,R0; STR R0,[R1,#-4]!; LDMIA SP!,{R0-R3,PC}^; B .; UMULL; Thumb MUL R0,R1;
PUSH {R4,LR}; BEQ .
(30_encoding.md R125, 30_encoding.md R131, 30_encoding.md R132, 30_encoding.md R133, 30_encoding.md R143,
30_encoding.md R153, 30_encoding.md R155) -/
def Obligations.DecodedWords : Prop :=
  decodeArm (0b1110#4 ++ 0b00#2 ++ 0b0#1 ++ 0b0100#4 ++ 0b1#1 ++ 1#4 ++ 0#4 ++ 0#5 ++ 0b00#2 ++ 0b0#1 ++ 2#4)
      = .addImmShift .al true 1 0 0 .lsl 2
    ∧ decodeArm 0xE1B0F00E = .movImmShift .al true 0 15 0 .lsl 14
    ∧ decodeArm (0b1110#4 ++ 0b00010#5 ++ 0b0#1 ++ 0b10#2 ++ 0b0001#4 ++ 0b1111#4 ++ 0b0000#4 ++ 0b0000#4 ++ 0#4)
      = .msrReg .al false 1 15 0 0
    ∧ decodeArm (0b1110#4 ++ 0b01#2 ++ 0b0#1 ++ 0b1#1 ++ 0b0#1 ++ 0b0#1 ++ 0b1#1 ++ 0b0#1 ++ 1#4 ++ 0#4 ++ 4#12)
      = .strImmPre .al false true 1 0 4
    ∧ decodeArm (0b1110#4 ++ 0b100#3 ++ 0b0#1 ++ 0b1#1 ++ 0b1#1 ++ 0b1#1 ++ 0b1#1 ++ 13#4 ++ 0x800F#16)
      = .ldm .al false true true true 13 0x800F
    ∧ decodeArm (0b1110#4 ++ 0b101#3 ++ 0b0#1 ++ 0xFFFFFE#24) = .b .al 0xFFFFFE
    ∧ decodeArm (0b1110#4 ++ 0b00001#5 ++ 0b0#1 ++ 0b0#1 ++ 0b0#1 ++ 1#4 ++ 0#4 ++ 3#4 ++ 0b1001#4 ++ 2#4)
      = .umull .al false 1 0 3 2
    ∧ decodeThumb (0b010000#6 ++ 0b1101#4 ++ 1#3 ++ 0#3) = .tMul 1 0
    ∧ decodeThumb (0b1011#4 ++ 0b0#1 ++ 0b10#2 ++ 0b1#1 ++ 0b00010000#8) = .tPush true 0b00010000
    ∧ decodeThumb (0b1101#4 ++ 0b0000#4 ++ 0xFE#8) = .tBcondD0 0 0xFE

/-- An ARM word decodes to an instruction that takes the undefined trap if and only if its bits fall in one of the
classes (a) to (g) of R138 (which take in every coprocessor word); a Thumb halfword if and only if its high byte
is one of those R159 lists.
(30_encoding.md R138, 30_encoding.md R134, 30_encoding.md R159) -/
def Obligations.UndefinedClasses : Prop :=
  (∀ w : Word, isUndefinedArm (decodeArm w) = undefinedClass w)
    ∧ (∀ h : Half, isUndefinedThumb (decodeThumb h) = undefinedHighByte (h.extractLsb' 8 8))

/-- The fourteen tested conditions and AL pass exactly when R123 says, and the code numbers 0000 to 1111 name them
in the order of the table.
(30_encoding.md R123) -/
def Obligations.ConditionTable : Prop :=
  (∀ p : Psr, (condHolds .eq p ↔ p.z = true) ∧ (condHolds .ne p ↔ p.z = false)
    ∧ (condHolds .cs p ↔ p.c = true) ∧ (condHolds .cc p ↔ p.c = false)
    ∧ (condHolds .mi p ↔ p.n = true) ∧ (condHolds .pl p ↔ p.n = false)
    ∧ (condHolds .vs p ↔ p.v = true) ∧ (condHolds .vc p ↔ p.v = false)
    ∧ (condHolds .hi p ↔ p.c = true ∧ p.z = false) ∧ (condHolds .ls p ↔ p.c = false ∨ p.z = true)
    ∧ (condHolds .ge p ↔ p.n = p.v) ∧ (condHolds .lt p ↔ p.n ≠ p.v)
    ∧ (condHolds .gt p ↔ p.z = false ∧ p.n = p.v) ∧ (condHolds .le p ↔ p.z = true ∨ p.n ≠ p.v)
    ∧ condHolds .al p)
    ∧ (List.range 16).map (fun k => condOfBits (BitVec.ofNat 4 k))
      = [.eq, .ne, .cs, .cc, .mi, .pl, .vs, .vc, .hi, .ls, .ge, .lt, .gt, .le, .al, .nv]

/-- For each of the 116 ARM instructions, undefined and coprocessor words included: when its condition is not NV and
fails, the next state is the old one with R15 advanced by 4 and the user-bank hazard over; no register, flag or
memory write, no access, no cost, no trap.
(30_encoding.md R124, 10_state.md R40, 10_state.md R45, 00_scope.md R13) -/
def Obligations.FailedConditionOnlyAdvances : Prop :=
  ∀ (i : Instr) (c : Cond) (s : State), condOf i = some c → c ≠ .nv → condHolds c s.cpsr = false → s.cpsr.t = false →
    exec i s = .next { s with pc := s.pc + 4, userBankHazard := false }

/-- For each of the 116 ARM instructions: with the condition NV the step faults Unpredictable(nv-condition), in
every state.
(30_encoding.md R124, 30_encoding.md R123) -/
def Obligations.NvConditionFaults : Prop :=
  ∀ (i : Instr) (s : State), condOf i = some .nv → exec i s = .fault (.unpredictable .nvCondition)

/-- An instruction whose encoding has a defect (`Instr.defect`) faults with that case when its condition passes. Which of
several defects of one word is named is the model's choice (notes/assumptions/11.md); that a halfword transfer with
write-back and Rm = Rn has one is the model's reading of 93_implementation_defined.md A.2 (notes/assumptions/21.md).
(30_encoding.md R137, 30_encoding.md R160, 40_shifter.md R188, 42_arm_psr_multiply_swap.md R253,
42_arm_psr_multiply_swap.md R260, 43_arm_load_store.md R291, 43_arm_load_store.md R300, 43_arm_load_store.md
R305, 45_thumb_alu.md R395, 60_exceptions.md R499) -/
def Obligations.IllFormedFaults : Prop :=
  ∀ (i : Instr) (u : UnpredictableCase) (s : State), i.defect = some u → passes i s = true →
    exec i s = .fault (.unpredictable u)

/-- Executing any instruction in any state gives a next state or one of the faults of R12; never a refusal.
(00_scope.md R5, 00_scope.md R12) -/
def Obligations.NoInstructionRefused : Prop :=
  ∀ (i : Instr) (s : State) (r : Refusal), exec i s ≠ .refused r

/-- R0 to R7 are the User-bank registers in every mode; R8 to R12 are the FIQ bank's in FIQ mode and the User bank's
otherwise; R13 and R14 are the bank of the mode, the User bank's in User and System. x[i] reads and writes the
register of the current mode, x_usr[i] the one of User mode.
(10_state.md R36) -/
def Obligations.BankTable : Prop :=
  (∀ m : Mode, ∀ i : Fin 8, bank m (BitVec.ofNat 4 i.val) = .usr ⟨i.val, by omega⟩)
    ∧ (∀ m : Mode, ∀ i : Fin 5, bank m (BitVec.ofNat 4 (8 + i.val))
        = if m = .fiq then .fiq ⟨i.val, by omega⟩ else .usr ⟨8 + i.val, by omega⟩)
    ∧ (∀ i : Fin 2, bank .user (BitVec.ofNat 4 (13 + i.val)) = .usr ⟨13 + i.val, by omega⟩
        ∧ bank .system (BitVec.ofNat 4 (13 + i.val)) = .usr ⟨13 + i.val, by omega⟩
        ∧ bank .fiq (BitVec.ofNat 4 (13 + i.val)) = .fiq ⟨5 + i.val, by omega⟩
        ∧ bank .supervisor (BitVec.ofNat 4 (13 + i.val)) = .svc i ∧ bank .abort (BitVec.ofNat 4 (13 + i.val)) = .abt i
        ∧ bank .irq (BitVec.ofNat 4 (13 + i.val)) = .irq i ∧ bank .undefined (BitVec.ofNat 4 (13 + i.val)) = .und i)
    ∧ (∀ (s : State) (r : Reg) (v : Word), readReg s r = readPhys s (bank s.cpsr.mode r)
        ∧ setReg s r v = writePhys s (bank s.cpsr.mode r) v
        ∧ readUsrReg s r = readPhys s (bank .user r) ∧ setUsrReg s r v = writePhys s (bank .user r) v)

/-- After writing register r in the current mode, register q seen in any mode is the value written if both names
mean one physical register, and what it held otherwise; so leaving a mode and coming back finds its registers as
they were left.
(10_state.md R37, 10_state.md R36, 60_exceptions.md R503) -/
def Obligations.ModeSwitchKeepsBanks : Prop :=
  ∀ (s : State) (r q : Reg) (v : Word) (m : Mode),
    readReg { setReg s r v with cpsr := { s.cpsr with mode := m } } q
      = if bank m q = bank s.cpsr.mode r then v else readReg { s with cpsr := { s.cpsr with mode := m } } q

/-- In the reset state, and after the host's reset of any state, the mode is Supervisor, I and F are 1, T is 0, R15
is 0, no fetch is contiguous and no user-bank hazard is open. A reset with the parameter reset_state installs
all its registers, its CPSR and its SPSRs instead. Every reset leaves memory and what the host owns as they
were; that this takes in the platform's state, the price table and the cost rule is the model's reading (log
entry 20). The values R48 leaves unspecified are the model's (log entries 1 to 4, 6) and nothing is said of them
here.
(10_state.md R48, 70_reset_and_hazards.md R541, 00_scope.md R9) -/
def Obligations.ResetState : Prop :=
  FreshlyReset State.reset
    ∧ (∀ s : State, FreshlyReset (hostReset s) ∧ OutsideKept s (hostReset s))
    ∧ (∀ r s : State, (∀ p, readPhys (installReset r s) p = readPhys r p) ∧ (installReset r s).cpsr = r.cpsr
      ∧ (∀ n, readSpsr (installReset r s) n = readSpsr r n) ∧ (installReset r s).lastFetch = none
      ∧ (installReset r s).userBankHazard = false ∧ OutsideKept s (installReset r s))

/-- The state after reset has memory in canonical form and R15 aligned to the instruction width.
(10_state.md R48, 10_state.md R40, 20_memory.md R81) -/
def Obligations.ResetInvariant : Prop :=
  State.reset.Inv

/-- In the word of a status register N, Z, C, V are bits 31 to 28, I, F, T bits 7 to 5 and the mode bits 4:0; the
seven modes have the numbers of R32 and no other five bits decode to a mode.
(10_state.md R34, 10_state.md R32) -/
def Obligations.PsrLayout : Prop :=
  (∀ (p : Psr) (r : BitVec 20), (psrWord p r).getLsbD 31 = p.n ∧ (psrWord p r).getLsbD 30 = p.z
    ∧ (psrWord p r).getLsbD 29 = p.c ∧ (psrWord p r).getLsbD 28 = p.v ∧ (psrWord p r).extractLsb' 8 20 = r
    ∧ (psrWord p r).getLsbD 7 = p.i ∧ (psrWord p r).getLsbD 6 = p.f ∧ (psrWord p r).getLsbD 5 = p.t
    ∧ modeOfBits ((psrWord p r).extractLsb' 0 5) = some p.mode)
    ∧ (∀ b : BitVec 5, modeOfBits b = if b = 0x10 then some .user else if b = 0x11 then some .fiq
        else if b = 0x12 then some .irq else if b = 0x13 then some .supervisor else if b = 0x17 then some .abort
        else if b = 0x1B then some .undefined else if b = 0x1F then some .system else none)

/-- The twelve operations that write a register (AND EOR SUB RSB ADD ADC SBC RSC ORR MOV BIC MVN), in all three
Operand2 forms, with Rd not R15, complete: Rd holds the result in 32-bit arithmetic, CPSR is unchanged or, with
S, has N, Z, C, V as exact integer arithmetic gives them (C the carry out or no borrow, V that the signed result
does not fit; for the logical ones C is the shifter carry and V stays), R15 advances, and nothing else changes.
(41_arm_data_processing.md R210, 41_arm_data_processing.md R211, 41_arm_data_processing.md R212,
41_arm_data_processing.md R213, 41_arm_data_processing.md R214, 41_arm_data_processing.md R215,
41_arm_data_processing.md R218, 41_arm_data_processing.md R219, 41_arm_data_processing.md R226, 40_shifter.md
R188, 10_state.md R38, 10_state.md R44) -/
def Obligations.DpResults : Prop :=
  ∀ (i : Instr) (f : DpForm) (s : State), dpForm i = some f → ready i s f.regs = true → f.op.isTest = false →
    f.rd ≠ 15 →
    ∃ t, exec i s = .next t ∧ readReg t f.rd = f.value s ∧ t.cpsr = (if f.sf then f.flags s else s.cpsr)
      ∧ Advanced s t ∧ FlagFrame (seen s [f.rd]) s t

/-- The four tests in all three Operand2 forms complete: CPSR gets the flags of AND, EOR, SUB and ADD of the
operands, R15 advances, and no register, SPSR or byte of memory changes.
(41_arm_data_processing.md R210, 41_arm_data_processing.md R221, 41_arm_data_processing.md R222,
41_arm_data_processing.md R223, 41_arm_data_processing.md R224) -/
def Obligations.DpTests : Prop :=
  ∀ (i : Instr) (f : DpForm) (s : State), dpForm i = some f → ready i s f.regs = true → f.op.isTest = true →
    ∃ t, exec i s = .next t ∧ t.cpsr = f.flags s ∧ Advanced s t ∧ FlagFrame [] s t

/-- With Rd = R15 and S = 0 the twelve operations complete: R15 is the result with its low two bits clear, the fetch
after it is not sequential, CPSR and everything else stay.
(41_arm_data_processing.md R210, 41_arm_data_processing.md R229, 10_state.md R39, 70_reset_and_hazards.md R550) -/
def Obligations.DpJump : Prop :=
  ∀ (i : Instr) (f : DpForm) (s : State), dpForm i = some f → ready i s f.regs = true → f.op.isTest = false →
    f.rd = 15 → f.sf = false →
    ∃ t, exec i s = .next t ∧ Jumped (f.value s &&& 0xFFFFFFFC) t ∧ Frame [] s t

/-- With Rd = R15 and S = 1, in a mode with an SPSR whose mode field decodes, the twelve operations complete: all of
CPSR comes from the SPSR, R15 is the result aligned as the restored T says, the fetch after it is not
sequential, and nothing else changes; where the mode field decodes to no mode the step faults InvalidMode.
(41_arm_data_processing.md R210, 60_exceptions.md R500, 10_state.md R42, 10_state.md R39,
70_reset_and_hazards.md R550) -/
def Obligations.DpReturn : Prop :=
  ∀ (i : Instr) (f : DpForm) (s : State) (n : SpsrName), dpForm i = some f → ready i s f.regs = true →
    f.op.isTest = false → f.rd = 15 → f.sf = true → s.cpsr.mode.spsr = some n →
    (∀ p, psrOfWord (readSpsr s n) = some p →
      ∃ t, exec i s = .next t ∧ t.cpsr = p ∧ Jumped (f.value s &&& (if p.t then 0xFFFFFFFE else 0xFFFFFFFC)) t
        ∧ FlagFrame [] s t)
    ∧ (psrOfWord (readSpsr s n) = none → exec i s = .fault (.invalidMode ((readSpsr s n).extractLsb' 0 5)))

/-- For every value and carry: what each kind gives for the immediate amount 0 and for the register amounts 0, 32
and 33, and what an immediate operand gives with and without rotation, as the table of R191 says.
(40_shifter.md R191) -/
def Obligations.ShiftEdgeCases : Prop :=
  ∀ (v : Word) (c : Bool),
    shiftByImm .lsl v 0 c = (v, c) ∧ shiftByImm .lsr v 0 c = (0, v.getLsbD 31)
    ∧ shiftByImm .asr v 0 c = ((if v.getLsbD 31 then 0xFFFFFFFF else 0), v.getLsbD 31)
    ∧ shiftByImm .ror v 0 c = (BitVec.ofBool c ++ v.extractLsb' 1 31, v.getLsbD 0)
    ∧ (∀ k, shiftByReg k v 0 c = (v, c))
    ∧ shiftByReg .lsl v 32 c = (0, v.getLsbD 0) ∧ shiftByReg .lsr v 32 c = (0, v.getLsbD 31)
    ∧ shiftByReg .asr v 32 c = ((if v.getLsbD 31 then 0xFFFFFFFF else 0), v.getLsbD 31)
    ∧ shiftByReg .ror v 32 c = (v, v.getLsbD 31)
    ∧ shiftByReg .lsl v 33 c = (0, false) ∧ shiftByReg .lsr v 33 c = (0, false)
    ∧ shiftByReg .asr v 33 c = ((if v.getLsbD 31 then 0xFFFFFFFF else 0), v.getLsbD 31)
    ∧ shiftByReg .ror v 33 c = (v.rotateRight 1, v.getLsbD 0)
    ∧ (∀ imm : BitVec 8, rotatedImm 0 imm c = (imm.setWidth 32, c))
    ∧ (∀ (rot : BitVec 4) (imm : BitVec 8), rot ≠ 0 →
        rotatedImm rot imm c = ((imm.setWidth 32 : Word).rotateRight (2 * rot.toNat),
          ((imm.setWidth 32 : Word).rotateRight (2 * rot.toNat)).getLsbD 31))

/-- For each kind and each register amount n of at least 1 (beyond 32 too): bit i of the result is bit i-n, bit i+n,
bit i+n or the sign, bit (i+n) mod 32 of the value, and the carry out is the last bit shifted out, the sign for
ASR of 32 and more, 0 for LSL and LSR beyond 32. A shift by an immediate amount of 1 to 31 is the shift by that
amount. Operand2 is the rotated immediate, or Rm shifted by the immediate, or Rm shifted by bits 7:0 of Rs; R15
as Rm or Rn reads 8 ahead, 12 ahead in the form with a register amount.
(40_shifter.md R181, 40_shifter.md R182, 40_shifter.md R183, 40_shifter.md R184, 40_shifter.md R186,
40_shifter.md R187, 40_shifter.md R188, 10_state.md R38) -/
def Obligations.ShiftBits : Prop :=
  (∀ (v : Word) (n : Nat) (c : Bool), 1 ≤ n →
    (∀ i, i < 32 →
      (shiftByReg .lsl v n c).1.getLsbD i = (decide (n ≤ i) && v.getLsbD (i - n))
      ∧ (shiftByReg .lsr v n c).1.getLsbD i = v.getLsbD (i + n)
      ∧ (shiftByReg .asr v n c).1.getLsbD i = v.getLsbD (min (i + n) 31)
      ∧ (shiftByReg .ror v n c).1.getLsbD i = v.getLsbD ((i + n) % 32))
    ∧ (shiftByReg .lsl v n c).2 = (decide (n ≤ 32) && v.getLsbD (32 - n))
    ∧ (shiftByReg .lsr v n c).2 = v.getLsbD (n - 1)
    ∧ (shiftByReg .asr v n c).2 = v.getLsbD (min (n - 1) 31)
    ∧ (shiftByReg .ror v n c).2 = v.getLsbD ((n - 1) % 32))
    ∧ (∀ (k : ShiftKind) (v : Word) (amt : BitVec 5) (c : Bool), amt ≠ 0 →
      shiftByImm k v amt c = shiftByReg k v amt.toNat c)
    ∧ (∀ v : Word, shiftAmount v = v.toNat % 256)
    ∧ (∀ (s : State) (rot : BitVec 4) (imm : BitVec 8),
      operand2 s (.imm rot imm) = rotatedImm rot imm s.cpsr.c)
    ∧ (∀ (s : State) (amt : BitVec 5) (k : ShiftKind) (rm : Reg),
      operand2 s (.immShift amt k rm) = shiftByImm k (if rm = 15 then s.pc + 8 else readReg s rm) amt s.cpsr.c)
    ∧ (∀ (s : State) (rs : Reg) (k : ShiftKind) (rm : Reg), operand2 s (.regShift rs k rm)
      = shiftByReg k (if rm = 15 then s.pc + 12 else readReg s rm) ((readReg s rs).toNat % 256) s.cpsr.c)
    ∧ (∀ (s : State) (f : DpForm), f.first s = if f.rn = 15 then
        s.pc + (match f.o with | .regShift _ _ _ => 12 | .immShift _ _ _ => 8 | .imm _ _ => 8) else readReg s f.rn)

/-- MRS of CPSR completes in every mode with Rd holding the flags, masks, T and mode at their bits, bits 27:8 being
free; MRS of SPSR completes in a mode that has one with Rd holding it; in both nothing else changes but the
advance of R15.
(42_arm_psr_multiply_swap.md R250, 10_state.md R46, 10_state.md R35) -/
def Obligations.MrsResults : Prop :=
  ∀ (c : Cond) (r : Bool) (sbo : BitVec 4) (rd : Reg) (hi lo : BitVec 4) (s : State),
    ready (.mrs c r sbo rd hi lo) s [rd] = true →
    (r = false → ∃ t reserved, exec (.mrs c r sbo rd hi lo) s = .next t ∧ readReg t rd = psrWord s.cpsr reserved
      ∧ Advanced s t ∧ Frame (seen s [rd]) s t)
    ∧ (r = true → ∀ n, s.cpsr.mode.spsr = some n → ∃ t, exec (.mrs c r sbo rd hi lo) s = .next t
      ∧ readReg t rd = readSpsr s n ∧ Advanced s t ∧ Frame (seen s [rd]) s t)

/-- Both MSR forms naming CPSR complete in User mode, whatever the mask and the value: N, Z, C, V come from bits
31:28 when the f field is selected and everything else stays.
(10_state.md R41, 42_arm_psr_multiply_swap.md R251, 42_arm_psr_multiply_swap.md R252, 60_exceptions.md R502) -/
def Obligations.MsrInUserMode : Prop :=
  ∀ (i : Instr) (f : MsrForm) (s : State), msrForm i s = some f → ready i s f.regs = true → f.r = false →
    s.cpsr.mode = .user →
    ∃ t, exec i s = .next t ∧ t.cpsr = flagsOf s.cpsr f.v f.fm ∧ Advanced s t ∧ FlagFrame [] s t

/-- Both MSR forms naming CPSR, outside User mode: without the c field only the flags can change; with it, a value
with another T bit faults msr-changes-T, a mode field that decodes to none faults InvalidMode, and otherwise I,
F and the mode are written, and the flags when the f field is selected.
(10_state.md R41, 10_state.md R37, 42_arm_psr_multiply_swap.md R251, 42_arm_psr_multiply_swap.md R252) -/
def Obligations.MsrPrivileged : Prop :=
  ∀ (i : Instr) (f : MsrForm) (s : State), msrForm i s = some f → ready i s f.regs = true → f.r = false →
    s.cpsr.mode ≠ .user →
    (f.fm.getLsbD 0 = false →
      ∃ t, exec i s = .next t ∧ t.cpsr = flagsOf s.cpsr f.v f.fm ∧ Advanced s t ∧ FlagFrame [] s t)
    ∧ (f.fm.getLsbD 0 = true → f.v.getLsbD 5 ≠ s.cpsr.t → exec i s = .fault (.unpredictable .msrChangesT))
    ∧ (f.fm.getLsbD 0 = true → f.v.getLsbD 5 = s.cpsr.t → modeOfBits (f.v.extractLsb' 0 5) = none →
      exec i s = .fault (.invalidMode (f.v.extractLsb' 0 5)))
    ∧ (f.fm.getLsbD 0 = true → f.v.getLsbD 5 = s.cpsr.t → ∀ m, modeOfBits (f.v.extractLsb' 0 5) = some m →
      ∃ t, exec i s = .next t
        ∧ t.cpsr = { flagsOf s.cpsr f.v f.fm with i := f.v.getLsbD 7, f := f.v.getLsbD 6, mode := m }
        ∧ Advanced s t ∧ FlagFrame [] s t)

/-- Both MSR forms naming SPSR: in a mode with an SPSR each byte of it that the mask selects becomes that byte of
the value, the others stay, no check is made of the mode field, and nothing else changes; in User or System mode
the step faults spsr-in-user-or-system.
(10_state.md R43) -/
def Obligations.MsrSpsr : Prop :=
  ∀ (i : Instr) (f : MsrForm) (s : State), msrForm i s = some f → ready i s f.regs = true → f.r = true →
    (∀ n, s.cpsr.mode.spsr = some n →
      ∃ t, exec i s = .next t
        ∧ (∀ b, b < 4 → (readSpsr t n).extractLsb' (8 * b) 8
          = (if f.fm.getLsbD b then f.v else readSpsr s n).extractLsb' (8 * b) 8)
        ∧ Advanced s t ∧ t.cpsr = s.cpsr ∧ SameRegs [] s t ∧ SameSpsrs [n] s t ∧ SameMemory s t ∧ SameHostState s t)
    ∧ (s.cpsr.mode = .user ∨ s.cpsr.mode = .system → exec i s = .fault (.unpredictable .spsrInUserOrSystem))

/-- In a mode without an SPSR, MRS of SPSR and the data-processing form that writes R15 with S fault spsr-in-user-
or-system.
(10_state.md R35, 10_state.md R42, 42_arm_psr_multiply_swap.md R250, 41_arm_data_processing.md R210,
60_exceptions.md R500) -/
def Obligations.SpsrAbsentFaults : Prop :=
  ∀ (i : Instr) (s : State), s.cpsr.mode = .user ∨ s.cpsr.mode = .system →
    (∀ c sbo rd hi lo, i = .mrs c true sbo rd hi lo → ready i s [rd] = true →
      exec i s = .fault (.unpredictable .spsrInUserOrSystem))
    ∧ (∀ f, dpForm i = some f → ready i s f.regs = true → f.op.isTest = false → f.rd = 15 → f.sf = true →
      exec i s = .fault (.unpredictable .spsrInUserOrSystem))

/-- MUL and MLA complete: Rd holds Rm times Rs, plus Rn for MLA, modulo 2^32; with S, N and Z come from it, C is a
free value and V stays; without S CPSR stays; nothing else changes.
(42_arm_psr_multiply_swap.md R253, 42_arm_psr_multiply_swap.md R254, 42_arm_psr_multiply_swap.md R255) -/
def Obligations.MulResults : Prop :=
  ∀ (i : Instr) (f : MulForm) (s : State), mulForm i = some f → ready i s f.regs = true →
    ∃ t, exec i s = .next t ∧ readReg t f.rd = f.value s
      ∧ t.cpsr = (if f.sf then
          { s.cpsr with n := (f.value s).getLsbD 31, z := decide (f.value s = 0), c := t.cpsr.c } else s.cpsr)
      ∧ Advanced s t ∧ FlagFrame (seen s [f.rd]) s t

/-- UMULL, UMLAL, SMULL and SMLAL complete: RdHi:RdLo holds the unsigned or signed product, plus the old RdHi:RdLo
where it accumulates, modulo 2^64; with S, N and Z come from the 64 bits and C and V are free values; nothing
else changes.
(42_arm_psr_multiply_swap.md R253, 42_arm_psr_multiply_swap.md R256, 42_arm_psr_multiply_swap.md R257,
42_arm_psr_multiply_swap.md R258, 42_arm_psr_multiply_swap.md R259) -/
def Obligations.LongMulResults : Prop :=
  ∀ (i : Instr) (f : LongForm) (s : State), longForm i = some f → ready i s f.regs = true →
    ∃ t, exec i s = .next t ∧ readReg t f.rdLo = (f.value s).extractLsb' 0 32
      ∧ readReg t f.rdHi = (f.value s).extractLsb' 32 32
      ∧ t.cpsr = (if f.sf then { s.cpsr with n := (f.value s).getLsbD 63, z := decide (f.value s = 0),
                                             c := t.cpsr.c, v := t.cpsr.v } else s.cpsr)
      ∧ Advanced s t ∧ FlagFrame (seen s [f.rdLo, f.rdHi]) s t

/-- When the store does not fall into the instruction slots already fetched, SWP and SWPB complete: Rd holds what
was loaded from the address in Rn before the store, the aligned location holds Rm, and no other register, byte
or status bit changes. Where the platform answers the location itself, ordinary memory stays, which is the
model's choice (log entry 5).
(42_arm_psr_multiply_swap.md R260, 42_arm_psr_multiply_swap.md R261, 20_memory.md R97) -/
def Obligations.SwapResults : Prop :=
  ∀ (i : Instr) (f : SwapForm) (s : State), swapForm i = some f → ready i s [f.rn, f.rd, f.rm] = true →
    storeHitsPipeline s f.width (alignTo f.width (readReg s f.rn)) = false →
    ∃ t, exec i s = .next t ∧ readReg t f.rd = loadValue s f.kind (readReg s f.rn)
      ∧ Stored f.width (alignTo f.width (readReg s f.rn)) (readReg s f.rm) s t
      ∧ Advanced s t ∧ StoreFrame (seen s [f.rd]) (InAccess f.width (alignTo f.width (readReg s f.rn))) s t

/-- The 18 ARM loads (words, bytes, halfwords, signed, user-mode-access forms) and the 10 Thumb loads complete: the
destination holds the loaded value (a load of R15 jumps to it in the same state, and the fetch after it is not
sequential by 70_reset_and_hazards.md R550), a written-back base that is not the destination holds the new
address, CPSR, ordinary memory and every other register stay. That a read which the platform answers leaves
ordinary memory is the model's choice (log entry 5). The halfword and signed forms with write-back and Rm = Rn
are not among them: they fault, which is the model's reading (log entry 21).
(43_arm_load_store.md R290, 43_arm_load_store.md R292, 43_arm_load_store.md R294, 43_arm_load_store.md R300,
43_arm_load_store.md R301, 43_arm_load_store.md R303, 43_arm_load_store.md R304, 46_thumb_load_store.md R420,
46_thumb_load_store.md R421, 46_thumb_load_store.md R431, 46_thumb_load_store.md R437, 20_memory.md R94) -/
def Obligations.LoadResults : Prop :=
  ∀ (i : Instr) (f : LoadForm) (s : State), loadForm i s = some f → ready i s f.regs = true →
    ∃ t, exec i s = .next t
      ∧ (f.rd ≠ 15 → readReg t f.rd = loadValue s f.kind f.addr ∧ Advanced s t)
      ∧ (f.rd = 15 → Jumped (fetchAddress s.cpsr.t (loadValue s f.kind f.addr)) t)
      ∧ (∀ b, f.base = some b → b.1 ≠ f.rd → readReg t b.1 = b.2)
      ∧ Frame (seen s (f.rd :: baseRegs f.base)) s t

/-- The 14 ARM stores and the 7 Thumb stores complete when the store does not fall into the instruction slots
already fetched: the location at the address, aligned to the width, holds the low bytes of the value read before
any write-back, a written-back base holds the new address, every other byte and register and CPSR stay. Where
the platform answers the address itself, ordinary memory stays, which is the model's choice (log entry 5). STRH
with write-back and Rm = Rn is not among them: it faults, which is the model's reading (log entry 21).
(43_arm_load_store.md R290, 43_arm_load_store.md R293, 43_arm_load_store.md R295, 43_arm_load_store.md R302,
46_thumb_load_store.md R420, 46_thumb_load_store.md R422, 46_thumb_load_store.md R432, 46_thumb_load_store.md
R434, 46_thumb_load_store.md R436, 20_memory.md R85, 20_memory.md R87, 20_memory.md R94) -/
def Obligations.StoreResults : Prop :=
  ∀ (i : Instr) (f : StoreForm) (s : State), storeForm i s = some f → ready i s f.regs = true →
    storeHitsPipeline s f.width (alignTo f.width f.addr) = false →
    ∃ t, exec i s = .next t ∧ Stored f.width (alignTo f.width f.addr) f.value s t
      ∧ (∀ b, f.base = some b → readReg t b.1 = b.2) ∧ Advanced s t
      ∧ StoreFrame (seen s (baseRegs f.base)) (InAccess f.width (alignTo f.width f.addr)) s t

/-- A store into the two slots after the instruction faults PipelineHazard: a single store, the store of a swap, any word
of a block store. That the window wraps modulo 2^32 is the model's
reading (notes/assumptions/13.md).
(20_memory.md R98, 70_reset_and_hazards.md R549) -/
def Obligations.PipelineStoreFaults : Prop :=
  (∀ (s : State) (w : Width) (a : Word), storeHitsPipeline s w a = true
      ↔ ∃ b, InAccess w a b ∧ (b - (s.pc + instrWidth s)).toNat < 2 * (instrWidth s).toNat)
    ∧ (∀ (i : Instr) (f : StoreForm) (s : State), storeForm i s = some f → ready i s f.regs = true →
      storeHitsPipeline s f.width (alignTo f.width f.addr) = true → exec i s = .fault (.pipelineHazard s.pc))
    ∧ (∀ (i : Instr) (f : SwapForm) (s : State), swapForm i = some f → ready i s [f.rn, f.rd, f.rm] = true →
      storeHitsPipeline s f.width (alignTo f.width (readReg s f.rn)) = true → exec i s = .fault (.pipelineHazard s.pc))
    ∧ (∀ (i : Instr) (f : BlockForm) (s : State) (k : Nat), blockStoreForm i s = some f →
      ready i s (f.rn :: f.regs) = true → k < f.regs.length → storeHitsPipeline s .word (f.wordAddr k) = true →
      exec i s = .fault (.pipelineHazard s.pc))
    ∧ (∀ (c : Cond) (p u : Bool) (rn : Reg) (list : BitVec 16) (s : State) (k : Nat),
      let f := armBlock s p u false rn list
      ready (.stm c p u true false rn list) s [rn] = true → s.cpsr.mode.spsr ≠ none → k < f.regs.length →
      storeHitsPipeline s .word (f.wordAddr k) = true →
      exec (.stm c p u true false rn list) s = .fault (.pipelineHazard s.pc))

/-- Byte i of a word load is the byte of the aligned word that lies i places after the addressed one, wrapping
inside the word; LDRH at an odd address puts the byte at a in bits 7:0 and the byte at a-1 in bits 31:24; LDRSH
sign-extends the halfword at an even address and the byte at an odd one; a byte load zero-extends, a signed one
sign-extends the byte at any address; a byte store writes bits 7:0 of its value at that address and nothing
else. An access reads the bytes of ordinary memory, little endian. Where the platform answers the address itself
a read gives its answer cut to the width and a byte store leaves ordinary memory, which is the model's choice
(log entry 5).
(20_memory.md R84, 20_memory.md R86, 20_memory.md R88, 20_memory.md R80, 20_memory.md R82) -/
def Obligations.LoadedBytes : Prop :=
  ∀ (s : State) (a : Word),
    (∀ i, i < 4 → (loadValue s .word a).extractLsb' (8 * i) 8
      = (busRead s .word (a &&& 0xFFFFFFFC)).extractLsb' (8 * ((i + a.toNat % 4) % 4)) 8)
    ∧ (a.getLsbD 0 = false → loadValue s .half a = ((busRead s .half a).extractLsb' 0 16).setWidth 32
      ∧ loadValue s .signedHalf a = ((busRead s .half a).extractLsb' 0 16).signExtend 32)
    ∧ (a.getLsbD 0 = true → loadValue s .half a
        = (busRead s .half (a - 1)).extractLsb' 0 8 ++ 0#16 ++ (busRead s .half (a - 1)).extractLsb' 8 8
      ∧ loadValue s .signedHalf a = ((busRead s .byte a).extractLsb' 0 8).signExtend 32)
    ∧ loadValue s .byte a = ((busRead s .byte a).extractLsb' 0 8).setWidth 32
    ∧ loadValue s .signedByte a = ((busRead s .byte a).extractLsb' 0 8).signExtend 32
    ∧ (isDevice s.devices a = false → ∀ b, busRead s .byte a = (byteAt s.mem a).setWidth 32
      ∧ busRead s .half a = (byteAt s.mem (a + 1) ++ byteAt s.mem a).setWidth 32
      ∧ busRead s .word a = byteAt s.mem (a + 3) ++ byteAt s.mem (a + 2) ++ byteAt s.mem (a + 1) ++ byteAt s.mem a
      ∧ ∀ v : Word, byteAt (busWrite s .byte a v) b = if b = a then v.extractLsb' 0 8 else byteAt s.mem b)
    ∧ (isDevice s.devices a = true →
      busRead s .byte a = ((Config.platformRead s.platform .byte a).extractLsb' 0 8).setWidth 32
      ∧ busRead s .half a = ((Config.platformRead s.platform .half a).extractLsb' 0 16).setWidth 32
      ∧ busRead s .word a = Config.platformRead s.platform .word a
      ∧ ∀ v : Word, busWrite s .byte a v = s.mem)

/-- A register is transferred exactly when its bit is set, in ascending order, and the base moves by four bytes a
register; an empty list transfers R15 alone and moves the base by 0x40.
(43_arm_load_store.md R305, 43_arm_load_store.md R311, 30_encoding.md R132) -/
def Obligations.RegisterLists : Prop :=
  ∀ list : BitVec 16,
    (∀ r : Reg, r ∈ listedRegs list ↔ list.getLsbD r.toNat = true)
    ∧ (listedRegs list).Pairwise (fun a b => a.toNat < b.toNat)
    ∧ (list ≠ 0 → transferredRegs list = listedRegs list
      ∧ transferBytes list = BitVec.ofNat 32 (4 * (listedRegs list).length))
    ∧ (list = 0 → transferredRegs list = [15] ∧ transferBytes list = 0x40)

/-- LDM with S = 0, POP and LDMIA complete: the k-th register of the list holds the aligned word at start + 4k (that
of ordinary memory or, by the model's choice of log entry 5, what the platform answers after the reads before
it), R15 in the list is a jump that keeps the state and makes the next fetch not sequential, a base outside the
list is written back when W says so, and nothing else changes.
(43_arm_load_store.md R305, 43_arm_load_store.md R306, 43_arm_load_store.md R309, 43_arm_load_store.md R311,
46_thumb_load_store.md R443, 46_thumb_load_store.md R445, 46_thumb_load_store.md R446, 20_memory.md R89,
70_reset_and_hazards.md R550) -/
def Obligations.BlockLoadResults : Prop :=
  ∀ (i : Instr) (f : BlockForm) (s : State), blockLoadForm i s = some f → ready i s (f.rn :: f.regs) = true →
    ∃ t, exec i s = .next t
      ∧ (∀ k r, f.regs[k]? = some r → r ≠ 15 → readReg t r = f.wordRead s k)
      ∧ (∀ k, isDevice s.devices (f.wordAddr k) = false → f.wordRead s k = memRead s.mem .word (f.wordAddr k))
      ∧ (f.rn ∉ f.regs → readReg t f.rn = if f.w then f.newBase else readReg s f.rn)
      ∧ (∀ k, f.regs[k]? = some 15 → Jumped (fetchAddress s.cpsr.t (f.wordRead s k)) t)
      ∧ (15 ∉ f.regs → Advanced s t)
      ∧ Frame (seen s (f.rn :: f.regs)) s t

/-- STM with S = 0, PUSH and STMIA complete when no word falls into the instruction slots already fetched: the
aligned word at start + 4k holds the k-th register (R15 read ahead, a written-back base as it will be unless it
is the lowest), the base is written back when W says so, every other byte and register and CPSR stay. Where the
platform answers a word's address itself, ordinary memory there stays, which is the model's choice (log entry
5).
(43_arm_load_store.md R305, 43_arm_load_store.md R307, 43_arm_load_store.md R309, 43_arm_load_store.md R311,
46_thumb_load_store.md R442, 46_thumb_load_store.md R444, 46_thumb_load_store.md R446, 20_memory.md R89) -/
def Obligations.BlockStoreResults : Prop :=
  ∀ (i : Instr) (f : BlockForm) (s : State), blockStoreForm i s = some f → ready i s (f.rn :: f.regs) = true →
    (∀ k, k < f.regs.length → storeHitsPipeline s .word (f.wordAddr k) = false) →
    ∃ t, exec i s = .next t
      ∧ (∀ k r, f.regs[k]? = some r → f.WordStored s t k (f.storedValue s k r))
      ∧ readReg t f.rn = (if f.w then f.newBase else readReg s f.rn) ∧ Advanced s t
      ∧ StoreFrame (seen s [f.rn]) (fun b => ∃ k, k < f.regs.length ∧ InAccess .word (f.wordAddr k) b) s t

/-- In a mode with an SPSR and without write-back, LDM with S = 1 and R15 not in the list completes: the k-th
register of the User bank holds the aligned word at start + 4k (that of ordinary memory or, by the model's
choice of log entry 5, what the platform answers), the user-bank hazard is set, R15 advances and nothing else
changes.
(43_arm_load_store.md R308, 10_state.md R45, 10_state.md R36) -/
def Obligations.UserBankLoad : Prop :=
  ∀ (c : Cond) (p u : Bool) (rn : Reg) (list : BitVec 16) (s : State),
    ready (.ldm c p u true false rn list) s [rn] = true → s.cpsr.mode.spsr ≠ none → 15 ∉ transferredRegs list →
    ∃ t, exec (.ldm c p u true false rn list) s = .next t
      ∧ (∀ k r, (transferredRegs list)[k]? = some r →
        readUsrReg t r = (armBlock s p u false rn list).wordRead s k)
      ∧ t.pc = s.pc + 4 ∧ t.userBankHazard = true ∧ t.lastFetch = s.lastFetch
      ∧ Frame ((transferredRegs list).map (bank .user)) s t

/-- LDM with S = 1 that transfers R15 is an exception return, or the fault InvalidMode where the SPSR holds no legal mode.
That an empty list is this form is the model's reading (notes/assumptions/12.md).
(43_arm_load_store.md R308, 60_exceptions.md R500, 10_state.md R42, 70_reset_and_hazards.md R550) -/
def Obligations.LdmReturn : Prop :=
  ∀ (c : Cond) (p u w : Bool) (rn : Reg) (list : BitVec 16) (s : State) (n : SpsrName),
    let f := armBlock s p u w rn list
    ready (.ldm c p u true w rn list) s (rn :: f.regs) = true → 15 ∈ f.regs → s.cpsr.mode.spsr = some n →
    (∀ q, psrOfWord (readSpsr s n) = some q →
      ∃ t, exec (.ldm c p u true w rn list) s = .next t
        ∧ (∀ k r, f.regs[k]? = some r → r ≠ 15 → readPhys t (bank s.cpsr.mode r) = f.wordRead s k)
        ∧ (rn ∉ f.regs → readPhys t (bank s.cpsr.mode rn) = if w then f.newBase else readReg s rn)
        ∧ t.cpsr = q ∧ (∀ k, f.regs[k]? = some 15 → Jumped (fetchAddress q.t (f.wordRead s k)) t)
        ∧ FlagFrame (seen s (rn :: f.regs)) s t)
    ∧ (psrOfWord (readSpsr s n) = none →
      exec (.ldm c p u true w rn list) s = .fault (.invalidMode ((readSpsr s n).extractLsb' 0 5)))

/-- In a mode with an SPSR, without write-back, and when no word falls into the instruction slots already fetched,
STM with S = 1 completes: the aligned word at start + 4k holds the k-th register of the User bank (R15 as
instr_addr + 12); every register, CPSR and every other byte stay. Where the platform answers a word's address
itself, ordinary memory there stays, which is the model's choice (log entry 5).
(43_arm_load_store.md R310, 43_arm_load_store.md R305, 43_arm_load_store.md R311) -/
def Obligations.UserBankStore : Prop :=
  ∀ (c : Cond) (p u : Bool) (rn : Reg) (list : BitVec 16) (s : State),
    let f := armBlock s p u false rn list
    ready (.stm c p u true false rn list) s [rn] = true → s.cpsr.mode.spsr ≠ none →
    (∀ k, k < f.regs.length → storeHitsPipeline s .word (f.wordAddr k) = false) →
    ∃ t, exec (.stm c p u true false rn list) s = .next t
      ∧ (∀ k r, f.regs[k]? = some r →
        f.WordStored s t k (userStoredValue s r))
      ∧ Advanced s t
      ∧ StoreFrame [] (fun b => ∃ k, k < f.regs.length ∧ InAccess .word (f.wordAddr k) b) s t

/-- Every LDM and STM with S = 1 that runs in User or System mode faults ldm-stm-user-bank.
(43_arm_load_store.md R308, 43_arm_load_store.md R310, 60_exceptions.md R504) -/
def Obligations.UserBankFormsFault : Prop :=
  ∀ (c : Cond) (p u w : Bool) (rn : Reg) (list : BitVec 16) (s : State),
    s.cpsr.mode = .user ∨ s.cpsr.mode = .system →
    (runs (.ldm c p u true w rn list) s = true →
      exec (.ldm c p u true w rn list) s = .fault (.unpredictable .ldmStmUserBank))
    ∧ (runs (.stm c p u true w rn list) s = true →
      exec (.stm c p u true w rn list) s = .fault (.unpredictable .ldmStmUserBank))

/-- Only an LDM with S = 1 that does not transfer R15 leaves the hazard set, and it stops the next instruction of either set
that accesses a banked register through x[i]. The model's readings: an empty list transfers R15 and does not open it
(notes/assumptions/12.md), the registers of `accessed` (notes/assumptions/17.md), this fault before PipelineHazard and
InvalidMode (notes/assumptions/11.md).
(10_state.md R45, 70_reset_and_hazards.md R549, 43_arm_load_store.md R308) -/
def Obligations.UserBankHazard : Prop :=
  (∀ (i : Instr) (s t : State), exec i s = .next t → t.userBankHazard = true →
      ∃ c p u w rn list, i = .ldm c p u true w rn list ∧ 15 ∉ transferredRegs list)
    ∧ (∀ (i : Instr) (s : State) (rs : List Reg), accessed i s = some rs → runs i s = true →
      (s.userBankHazard = true ∧ ∃ r ∈ rs, r ≠ 15 ∧ bank s.cpsr.mode r ≠ bank .user r) →
      exec i s = .fault (.unpredictable .userBankHazard))

/-- B and BL complete: R15 is the instruction address plus 8 plus the sign-extended word offset; BL also leaves the
address of the next instruction in R14 of the current mode; the fetch after either is not sequential, wherever
it goes; nothing else changes.
(44_arm_branch_system.md R340, 44_arm_branch_system.md R341, 70_reset_and_hazards.md R550) -/
def Obligations.ArmBranches : Prop :=
  (∀ (c : Cond) (off : BitVec 24) (s : State), ready (.b c off) s [] = true →
      ∃ t, exec (.b c off) s = .next t ∧ Jumped (fetchAddress false (s.pc + 8 + (off.signExtend 32 <<< 2))) t
        ∧ Frame [] s t)
    ∧ (∀ (c : Cond) (off : BitVec 24) (s : State), ready (.bl c off) s [14] = true →
      ∃ t, exec (.bl c off) s = .next t ∧ Jumped (fetchAddress false (s.pc + 8 + (off.signExtend 32 <<< 2))) t
        ∧ readReg t 14 = s.pc + 4 ∧ Frame (seen s [14]) s t)

/-- BX completes in both states: T becomes bit 0 of the target, R15 the target with bit 0 clear in Thumb state and
bits 1:0 clear in ARM state; R15 as the source reads 8 or 4 ahead; the fetch after it is not sequential; no
other status bit, register or byte changes.
(44_arm_branch_system.md R342, 45_thumb_alu.md R401, 10_state.md R39, 70_reset_and_hazards.md R550) -/
def Obligations.BranchExchange : Prop :=
  (∀ (c : Cond) (sbo : BitVec 12) (rm : Reg) (s : State), ready (.bx c sbo rm) s [rm] = true →
      ∃ t, exec (.bx c sbo rm) s = .next t ∧ Exchanged (if rm = 15 then s.pc + 8 else readReg s rm) s t)
    ∧ (∀ (h1 h2 : Bool) (rs rd : LowReg) (s : State), ready (.tBx h1 h2 rs rd) s [highReg h2 rs] = true →
      ∃ t, exec (.tBx h1 h2 rs rd) s = .next t
        ∧ Exchanged (if highReg h2 rs = 15 then s.pc + 4 else readReg s (highReg h2 rs)) s t)

/-- SWI completes in every mode, in both states, by taking its exception: R14_svc is the address of the next
instruction, SPSR_svc the old CPSR, the mode Supervisor, T 0, I 1, F and the flags unchanged, R15 0x00000008,
and nothing else changes.
(44_arm_branch_system.md R343, 47_thumb_branch.md R471, 60_exceptions.md R495, 60_exceptions.md R496,
60_exceptions.md R497) -/
def Obligations.SoftwareInterruptEntry : Prop :=
  (∀ (c : Cond) (cmt : BitVec 24) (s : State), runs (.swi c cmt) s = true →
      ∃ t, exec (.swi c cmt) s = .next t ∧ Entered .supervisor (.svc 1) .svc 0x00000008 (s.pc + 4) s t)
    ∧ (∀ (val : BitVec 8) (s : State), runs (.tSwi val) s = true →
      ∃ t, exec (.tSwi val) s = .next t ∧ Entered .supervisor (.svc 1) .svc 0x00000008 (s.pc + 2) s t)

/-- LDC, STC, CDP, MCR, MRC and every UNDEFINED row of both sets complete by taking the trap: R14_und is the address
of the next instruction, SPSR_und the old CPSR, the mode Undefined, T 0, I 1, R15 0x00000004, and nothing else
changes.
(44_arm_branch_system.md R344, 44_arm_branch_system.md R345, 44_arm_branch_system.md R346,
44_arm_branch_system.md R347, 44_arm_branch_system.md R348, 47_thumb_branch.md R475, 60_exceptions.md R492,
60_exceptions.md R495, 60_exceptions.md R496) -/
def Obligations.UndefinedEntry : Prop :=
  (∀ (i : Instr) (s : State), isUndefinedArm i = true → runs i s = true →
      ∃ t, exec i s = .next t ∧ Entered .undefined (.und 1) .und 0x00000004 (s.pc + 4) s t)
    ∧ (∀ (i : Instr) (s : State), isUndefinedThumb i = true → runs i s = true →
      ∃ t, exec i s = .next t ∧ Entered .undefined (.und 1) .und 0x00000004 (s.pc + 2) s t)

/-- The 26 instructions of formats 1 to 4 other than MUL complete: the destination, where there is one, holds the
result, N, Z, C, V are those of the operation (a shift: N and Z of the result, C the shifter carry; an addition
or subtraction: all four in exact arithmetic; a logical operation: C and V kept), R15 advances by 2 and nothing
else changes.
(45_thumb_alu.md R370, 45_thumb_alu.md R371, 45_thumb_alu.md R374, 45_thumb_alu.md R378, 45_thumb_alu.md R381,
45_thumb_alu.md R384, 45_thumb_alu.md R387, 45_thumb_alu.md R388, 45_thumb_alu.md R391, 45_thumb_alu.md R393,
45_thumb_alu.md R397, 40_shifter.md R190) -/
def Obligations.ThumbAluResults : Prop :=
  ∀ (i : Instr) (f : ThumbAlu) (s : State), thumbAlu i s = some f → runs i s = true →
    ∃ t, exec i s = .next t ∧ (∀ rd, f.rd = some rd → low t rd = specResult f.op f.a f.b s.cpsr.c)
      ∧ t.cpsr = specFlags f.op f.a f.b f.sc s.cpsr ∧ Advanced s t
      ∧ FlagFrame (seen s (f.rd.toList.map lowReg)) s t

/-- With two different registers Thumb MUL completes: Rd holds Rs times Rd modulo 2^32, N and Z come from it, C is a
free value, V stays, R15 advances by 2 and nothing else changes.
(45_thumb_alu.md R395) -/
def Obligations.ThumbMulResult : Prop :=
  ∀ (rs rd : LowReg) (s : State), runs (.tMul rs rd) s = true →
    let v : Word := BitVec.ofNat 32 ((low s rs).toNat * (low s rd).toNat)
    ∃ t, exec (.tMul rs rd) s = .next t ∧ low t rd = v
      ∧ t.cpsr = { s.cpsr with n := v.getLsbD 31, z := decide (v = 0), c := t.cpsr.c }
      ∧ Advanced s t ∧ FlagFrame (seen s [lowReg rd]) s t

/-- With at least one high register, ADD and MOV complete with Rd holding the sum or Rs and no flag changed (Rd =
R15: a jump that stays in Thumb state, with the next fetch not sequential), CMP with all four flags of the
comparison; R15 as an operand reads 4 ahead.
(45_thumb_alu.md R398, 45_thumb_alu.md R399, 45_thumb_alu.md R400, 10_state.md R38, 10_state.md R39,
70_reset_and_hazards.md R550) -/
def Obligations.ThumbHighRegisters : Prop :=
  (∀ (h1 h2 : Bool) (rs rd : LowReg) (s : State),
      ready (.tAddHi h1 h2 rs rd) s [highReg h1 rd, highReg h2 rs] = true →
      ∃ t, exec (.tAddHi h1 h2 rs rd) s = .next t
        ∧ WrittenHigh (highReg h1 rd) (ahead s (highReg h1 rd) + ahead s (highReg h2 rs)) s t)
    ∧ (∀ (h1 h2 : Bool) (rs rd : LowReg) (s : State),
      ready (.tMovHi h1 h2 rs rd) s [highReg h1 rd, highReg h2 rs] = true →
      ∃ t, exec (.tMovHi h1 h2 rs rd) s = .next t ∧ WrittenHigh (highReg h1 rd) (ahead s (highReg h2 rs)) s t)
    ∧ (∀ (h1 h2 : Bool) (rs rd : LowReg) (s : State),
      ready (.tCmpHi h1 h2 rs rd) s [highReg h1 rd, highReg h2 rs] = true →
      ∃ t, exec (.tCmpHi h1 h2 rs rd) s = .next t
        ∧ t.cpsr = specFlags .cmp (ahead s (highReg h1 rd)) (ahead s (highReg h2 rs)) false s.cpsr
        ∧ Advanced s t ∧ FlagFrame [] s t)

/-- ADD Rd,PC and ADD Rd,SP complete with Rd holding the aligned PC or SP plus the word offset; ADD SP and SUB SP
with SP moved by it; CPSR, memory and every other register stay.
(46_thumb_load_store.md R438, 46_thumb_load_store.md R439, 46_thumb_load_store.md R440, 46_thumb_load_store.md
R441) -/
def Obligations.ThumbAddresses : Prop :=
  (∀ (i : Instr) (rd : LowReg) (v : Word) (rs : List Reg) (s : State), thumbAddressForm i s = some (rd, v, rs) →
      ready i s rs = true →
      ∃ t, exec i s = .next t ∧ low t rd = v ∧ Advanced s t ∧ Frame (seen s [lowReg rd]) s t)
    ∧ (∀ (off : BitVec 7) (s : State), ready (.tSpAdd off) s [13] = true →
      ∃ t, exec (.tSpAdd off) s = .next t ∧ readReg t 13 = readReg s 13 + ((off.setWidth 32 : Word) <<< 2)
        ∧ Advanced s t ∧ Frame (seen s [13]) s t)
    ∧ (∀ (off : BitVec 7) (s : State), ready (.tSpSub off) s [13] = true →
      ∃ t, exec (.tSpSub off) s = .next t ∧ readReg t 13 = readReg s 13 - ((off.setWidth 32 : Word) <<< 2)
        ∧ Advanced s t ∧ Frame (seen s [13]) s t)

/-- B<cond> goes to the instruction address plus 4 plus its halfword offset when its condition passes and advances
by 2 otherwise; B always goes there; the first half of BL puts the high part of the offset into R14; the second
half goes to R14 plus its low part and leaves the return address with bit 0 set in R14. The fetch after a taken
branch is not sequential. No flag changes and Thumb state is kept.
(47_thumb_branch.md R470, 47_thumb_branch.md R472, 47_thumb_branch.md R473, 47_thumb_branch.md R474,
70_reset_and_hazards.md R550) -/
def Obligations.ThumbBranches : Prop :=
  (∀ (i : Instr) (c : Cond) (a : Word) (s : State), thumbBranchForm i s = some (c, a) → ready i s [] = true →
      ∃ t, exec i s = .next t
        ∧ (if condHolds c s.cpsr then Jumped (fetchAddress true a) t else Advanced s t)
        ∧ Frame [] s t)
    ∧ (∀ (off : BitVec 11) (s : State), ready (.tB off) s [] = true →
      ∃ t, exec (.tB off) s = .next t ∧ Jumped (fetchAddress true (s.pc + 4 + (off.signExtend 32 <<< 1))) t
        ∧ Frame [] s t)
    ∧ (∀ (off : BitVec 11) (s : State), ready (.tBlFirst off) s [14] = true →
      ∃ t, exec (.tBlFirst off) s = .next t ∧ readReg t 14 = s.pc + 4 + (off.signExtend 32 <<< 12)
        ∧ Advanced s t ∧ Frame (seen s [14]) s t)
    ∧ (∀ (off : BitVec 11) (s : State), ready (.tBlSecond off) s [14] = true →
      ∃ t, exec (.tBlSecond off) s = .next t
        ∧ Jumped (fetchAddress true (readReg s 14 + ((off.setWidth 32 : Word) <<< 1))) t
        ∧ readReg t 14 = (s.pc + 2) ||| 1 ∧ Frame (seen s [14]) s t)

/-- A step of a core the host does not hold, with no IRQ to take, is the execution of the instruction at R15. The model's
readings: a step of a held core changes nothing (notes/assumptions/9.md); the formula of R550 over last_fetch_addr decides whether
the fetch is sequential (notes/assumptions/16.md); the platform's part, the debit and the record of the access
(notes/assumptions/5.md, 8.md, 19.md). What is fetched is said of an aligned R15 only (notes/assumptions/15.md).
(70_reset_and_hazards.md R543, 30_encoding.md R121, 20_memory.md R90, 60_exceptions.md R499,
70_reset_and_hazards.md R550, 70_reset_and_hazards.md R551, 00_scope.md R9) -/
def Obligations.StepRunsDecoded : Prop :=
  (∀ (s : State) (i : Instr), hostHolds s = false → irqTaken s = false → decode (fetchCode s) = i →
      step s = andThen (exec i (fetched s)) (fun t => .next (debit s t)))
    ∧ (∀ s : State, hostHolds s = true → step s = .next s)
    ∧ (∀ s : State, PcAligned s → isDevice s.devices s.pc = false →
      fetchCode s = if s.cpsr.t then .thumb (byteAt s.mem (s.pc + 1) ++ byteAt s.mem s.pc)
        else .arm (byteAt s.mem (s.pc + 3) ++ byteAt s.mem (s.pc + 2) ++ byteAt s.mem (s.pc + 1) ++ byteAt s.mem s.pc))
    ∧ (∀ s : State, PcAligned s → isDevice s.devices s.pc = true →
      fetchCode s = if s.cpsr.t then .thumb ((Config.platformRead s.platform .half s.pc).extractLsb' 0 16)
        else .arm (Config.platformRead s.platform .word s.pc))
    ∧ (∀ s : State, PcAligned s →
      ∃ x : BusAccess, x.write = false ∧ x.width = (if s.cpsr.t then .half else .word) ∧ x.addr = s.pc
        ∧ x.value = busRead s x.width s.pc ∧ (x.seq = true ↔ ∃ a, s.lastFetch = some a ∧ s.pc = a + (if s.cpsr.t then 2 else 4)) ∧ x.is32 = !s.cpsr.t
        ∧ fetched s = { s with
            bus := [x], lastFetch := some s.pc, platform := platformStep s.devices s.platform x
            cycleBudget := s.cycleBudget - accessCycles s.accessTable x.seq x.is32 x.addr })
    ∧ (∀ s t : State, debit s t = { t with cycleBudget :=
        if s.costRule = .host then s.cycleBudget - max 1 (Config.cycleCost s t) else min t.cycleBudget (s.cycleBudget - 1) })

/-- When the host does not hold the core, irq_line is 1 and I is 0, the step enters IRQ mode: R14_irq is R15 + 4 in
both states, SPSR_irq the old CPSR, T 0, I 1, R15 0x00000018 with no fetch contiguous to it, nothing else
changes and no instruction executes.
(60_exceptions.md R493, 60_exceptions.md R495, 60_exceptions.md R496, 60_exceptions.md R499,
70_reset_and_hazards.md R543) -/
def Obligations.IrqAtBoundary : Prop :=
  ∀ s : State, hostHolds s = false → s.irqLine = true → s.cpsr.i = false →
    ∃ t, step s = .next t ∧ Entered .irq (.irq 1) .irq 0x00000018 (s.pc + 4) s t

/-- For every budget b of at most 0, every state and whatever the host sets at the boundaries, execute(b) makes no
step, leaves the state as it is and returns b; for b = 0 it returns 0.
(70_reset_and_hazards.md R546) -/
def Obligations.ExecuteNonPositive : Prop :=
  ∀ (env : Nat → BoundaryInput) (b : Int) (s : State), b ≤ 0 → execute env b s = .next (b, s)

/-- Whatever the host sets at the boundaries of the call, a call of execute with a positive budget that ends without
a fault ends at a boundary where the break flag is set, R15 is a breakpoint or the budget is used up, and
returns the budget of that state, which is at most the one given.
(70_reset_and_hazards.md R540, 70_reset_and_hazards.md R543, 70_reset_and_hazards.md R548,
70_reset_and_hazards.md R551) -/
def Obligations.ExecuteReturnsHeld : Prop :=
  ∀ (env : Nat → BoundaryInput) (b r : Int) (s t : State), 0 < b → execute env b s = .next (r, t) →
    hostHolds t = true ∧ r = t.cycleBudget ∧ r ≤ b

/-- If the host does not hold the core and a step answers a next state, its budget is at least one lower, whether
the default formula or the host's own cycle_cost sets the cost.
(70_reset_and_hazards.md R551, 70_reset_and_hazards.md R543) -/
def Obligations.StepSpendsBudget : Prop :=
  ∀ s t : State, hostHolds s = false → step s = .next t → t.cycleBudget ≤ s.cycleBudget - 1

/-- A step never changes irq_line, the break flag, the breakpoints, the price table, the cost rule or which
addresses the platform answers itself: the core only reads them.
(10_state.md R45, 70_reset_and_hazards.md R544, 60_exceptions.md R493) -/
def Obligations.HostStateUntouched : Prop :=
  ∀ s t : State, step s = .next t → SameHostState s t

/-- From every state whose memory is in canonical form and whose R15 is a multiple of 4 in ARM state and of 2 in
Thumb state, a step that answers a next state gives a state of that form, whatever instruction it runs or
exception it takes.
(10_state.md R39, 10_state.md R40, 20_memory.md R81, 60_exceptions.md R495) -/
def Obligations.StepKeepsInv : Prop :=
  ∀ s t : State, s.Inv → step s = .next t → t.Inv

/-- From User mode a step either stays in User mode with I, F, every SPSR and every register outside the User bank
as they were, or is an exception entry: Supervisor, Undefined or IRQ mode, ARM state, I set, F kept, R15 at the
vector of that mode.
(60_exceptions.md R502, 60_exceptions.md R504, 10_state.md R41, 10_state.md R44) -/
def Obligations.UserModeConfined : Prop :=
  ∀ s t : State, s.cpsr.mode = .user → step s = .next t →
    (t.cpsr.mode = .user ∧ t.cpsr.i = s.cpsr.i ∧ t.cpsr.f = s.cpsr.f ∧ SameSpsrs [] s t
      ∧ (∀ p, (∀ k, p ≠ .usr k) → p ≠ .pc → readPhys t p = readPhys s p))
    ∨ (t.cpsr.t = false ∧ t.cpsr.i = true ∧ t.cpsr.f = s.cpsr.f
      ∧ ((t.cpsr.mode = .supervisor ∧ t.pc = 0x00000008) ∨ (t.cpsr.mode = .undefined ∧ t.pc = 0x00000004)
        ∨ (t.cpsr.mode = .irq ∧ t.pc = 0x00000018)))

/-- From any state with R15 aligned, in any mode and either state: after SWI or an undefined instruction, MOVS PC,
R14 completes with CPSR as it was before the trap, all of it, R15 at the instruction after the trapping one,
memory and every register but the link register of the trap as they were.
(60_exceptions.md R500, 60_exceptions.md R495, 60_exceptions.md R496, 60_exceptions.md R510, 10_state.md R42) -/
def Obligations.TrapRoundTrip : Prop :=
  ∀ (i : Instr) (s e : State), PcAligned s → trapLink i ≠ none → runs i s = true → exec i s = .next e →
    ∃ t, exec (.movImmShift .al true 0 15 0 .lsl 14) e = .next t ∧ t.cpsr = s.cpsr ∧ t.pc = s.pc + instrWidth s
      ∧ SameRegs (trapLink i).toList s t ∧ SameMemory s t

/-- A single transfer: the offset is the immediate, the plain register, or the register shifted by the immediate;
the base is Rn, R15 reading 8 ahead; U adds the offset and clear U subtracts it; P takes that sum as the address
and clear P the base; the base is written back unless P is set and W clear. A block transfer of n words, 16 for
an empty list, starts at the base (IA), base + 4 (IB), base - 4n + 4 (DA), base - 4n (DB), and its new base is
base + 4n or base - 4n.
(43_arm_load_store.md R290, 43_arm_load_store.md R300, 43_arm_load_store.md R305, 43_arm_load_store.md R311,
40_shifter.md R189, 10_state.md R38) -/
def Obligations.AddressingModes : Prop :=
  (∀ (s : State) (rn : Reg) (o : Offset) (p u w : Bool),
      let base := if rn = 15 then s.pc + 8 else readReg s rn
      let moved := if u then base + offsetValue s o else base - offsetValue s o
      offsetAddr s ⟨p, u, w⟩ rn o = moved
      ∧ transferAddr s ⟨p, u, w⟩ rn o = (if p then moved else base)
      ∧ (Indexing.writeback ⟨p, u, w⟩ = true ↔ p = false ∨ w = true))
    ∧ (∀ (s : State) (v : Word) (amt : BitVec 5) (k : ShiftKind) (rm : Reg),
      offsetValue s (.imm v) = v ∧ offsetValue s (.reg rm) = readReg s rm
      ∧ offsetValue s (.scaled amt k rm) = (shiftByImm k (readReg s rm) amt s.cpsr.c).1)
    ∧ (∀ (base : Word) (list : BitVec 16),
      let n := if list = 0 then 16 else (List.range 16).countP (fun i => list.getLsbD i)
      let size : Word := BitVec.ofNat 32 (4 * n)
      blockStart false true base list = base ∧ blockStart true true base list = base + 4
      ∧ blockStart false false base list = base - size + 4 ∧ blockStart true false base list = base - size
      ∧ blockNewBase true base list = base + size ∧ blockNewBase false base list = base - size)

/-- When an instruction that runs answers a next state, the data accesses it has presented are those of its rule, in
order, each once, with their width, aligned address and sequential argument; each write hands over the value the
rule stores, cut to the width, and each read has the answer of the interface in the state it was made in; when
the condition fails no access is presented. In every case the platform has acted on those of them that it
answers itself, in that order, and on nothing else. The platform's part (log entry 5) and the record of the
accesses (log entry 19) are the model's choices; what is said holds for every platform.
(20_memory.md R92, 20_memory.md R80, 70_reset_and_hazards.md R550, 00_scope.md R9) -/
def Obligations.AccessesPresented : Prop :=
  ∀ (i : Instr) (s t : State), exec i s = .next t →
    ∃ xs : List BusAccess, t.bus = s.bus ++ xs ∧ t.platform = xs.foldl (platformStep s.devices) s.platform
      ∧ (runs i s = true → xs.map request = dataAccesses i s) ∧ (passes i s = false → xs = [])
      ∧ (∀ k x, xs[k]? = some x → x.write = false →
        x.value = busRead { s with platform := (xs.take k).foldl (platformStep s.devices) s.platform } x.width x.addr)
end

