-- ==== Sys2Proof/Laws/State.lean ====
section
/-! SUPPORT. For each operation that updates the state, what it does to each field: one lemma per field. -/

namespace Sys2Proof.Machine

open Sys2Proof

/-! ## `charge` -/

@[simp] theorem charge_usr (s : State) (n : Nat) : (charge s n).usr = s.usr := rfl
@[simp] theorem charge_fiq (s : State) (n : Nat) : (charge s n).fiq = s.fiq := rfl
@[simp] theorem charge_svc (s : State) (n : Nat) : (charge s n).svc = s.svc := rfl
@[simp] theorem charge_abt (s : State) (n : Nat) : (charge s n).abt = s.abt := rfl
@[simp] theorem charge_irq (s : State) (n : Nat) : (charge s n).irq = s.irq := rfl
@[simp] theorem charge_und (s : State) (n : Nat) : (charge s n).und = s.und := rfl
@[simp] theorem charge_pc (s : State) (n : Nat) : (charge s n).pc = s.pc := rfl
@[simp] theorem charge_cpsr (s : State) (n : Nat) : (charge s n).cpsr = s.cpsr := rfl
@[simp] theorem charge_spsrFiq (s : State) (n : Nat) : (charge s n).spsrFiq = s.spsrFiq := rfl
@[simp] theorem charge_spsrSvc (s : State) (n : Nat) : (charge s n).spsrSvc = s.spsrSvc := rfl
@[simp] theorem charge_spsrAbt (s : State) (n : Nat) : (charge s n).spsrAbt = s.spsrAbt := rfl
@[simp] theorem charge_spsrIrq (s : State) (n : Nat) : (charge s n).spsrIrq = s.spsrIrq := rfl
@[simp] theorem charge_spsrUnd (s : State) (n : Nat) : (charge s n).spsrUnd = s.spsrUnd := rfl
@[simp] theorem charge_lastFetch (s : State) (n : Nat) : (charge s n).lastFetch = s.lastFetch := rfl
@[simp] theorem charge_userBankHazard (s : State) (n : Nat) : (charge s n).userBankHazard = s.userBankHazard := rfl
@[simp] theorem charge_mem (s : State) (n : Nat) : (charge s n).mem = s.mem := rfl
@[simp] theorem charge_devices (s : State) (n : Nat) : (charge s n).devices = s.devices := rfl
@[simp] theorem charge_platform (s : State) (n : Nat) : (charge s n).platform = s.platform := rfl
@[simp] theorem charge_irqLine (s : State) (n : Nat) : (charge s n).irqLine = s.irqLine := rfl
@[simp] theorem charge_breakFlag (s : State) (n : Nat) : (charge s n).breakFlag = s.breakFlag := rfl
@[simp] theorem charge_breakpoints (s : State) (n : Nat) : (charge s n).breakpoints = s.breakpoints := rfl
@[simp] theorem charge_cycleBudget (s : State) (n : Nat) : (charge s n).cycleBudget = s.cycleBudget - n := rfl
@[simp] theorem charge_accessTable (s : State) (n : Nat) : (charge s n).accessTable = s.accessTable := rfl
@[simp] theorem charge_costRule (s : State) (n : Nat) : (charge s n).costRule = s.costRule := rfl
@[simp] theorem charge_bus (s : State) (n : Nat) : (charge s n).bus = s.bus := rfl
@[simp] theorem charge_draws (s : State) (n : Nat) : (charge s n).draws = s.draws := rfl

/-! ## `noteAccess` -/

@[simp] theorem noteAccess_usr (s : State) (x : BusAccess) : (noteAccess s x).usr = s.usr := rfl
@[simp] theorem noteAccess_fiq (s : State) (x : BusAccess) : (noteAccess s x).fiq = s.fiq := rfl
@[simp] theorem noteAccess_svc (s : State) (x : BusAccess) : (noteAccess s x).svc = s.svc := rfl
@[simp] theorem noteAccess_abt (s : State) (x : BusAccess) : (noteAccess s x).abt = s.abt := rfl
@[simp] theorem noteAccess_irq (s : State) (x : BusAccess) : (noteAccess s x).irq = s.irq := rfl
@[simp] theorem noteAccess_und (s : State) (x : BusAccess) : (noteAccess s x).und = s.und := rfl
@[simp] theorem noteAccess_pc (s : State) (x : BusAccess) : (noteAccess s x).pc = s.pc := rfl
@[simp] theorem noteAccess_cpsr (s : State) (x : BusAccess) : (noteAccess s x).cpsr = s.cpsr := rfl
@[simp] theorem noteAccess_spsrFiq (s : State) (x : BusAccess) : (noteAccess s x).spsrFiq = s.spsrFiq := rfl
@[simp] theorem noteAccess_spsrSvc (s : State) (x : BusAccess) : (noteAccess s x).spsrSvc = s.spsrSvc := rfl
@[simp] theorem noteAccess_spsrAbt (s : State) (x : BusAccess) : (noteAccess s x).spsrAbt = s.spsrAbt := rfl
@[simp] theorem noteAccess_spsrIrq (s : State) (x : BusAccess) : (noteAccess s x).spsrIrq = s.spsrIrq := rfl
@[simp] theorem noteAccess_spsrUnd (s : State) (x : BusAccess) : (noteAccess s x).spsrUnd = s.spsrUnd := rfl
@[simp] theorem noteAccess_lastFetch (s : State) (x : BusAccess) : (noteAccess s x).lastFetch = s.lastFetch := rfl
@[simp] theorem noteAccess_userBankHazard (s : State) (x : BusAccess) : (noteAccess s x).userBankHazard = s.userBankHazard := rfl
@[simp] theorem noteAccess_mem (s : State) (x : BusAccess) : (noteAccess s x).mem = s.mem := rfl
@[simp] theorem noteAccess_devices (s : State) (x : BusAccess) : (noteAccess s x).devices = s.devices := rfl
@[simp] theorem noteAccess_platform (s : State) (x : BusAccess) : (noteAccess s x).platform = platformStep s.devices s.platform x := rfl
@[simp] theorem noteAccess_irqLine (s : State) (x : BusAccess) : (noteAccess s x).irqLine = s.irqLine := rfl
@[simp] theorem noteAccess_breakFlag (s : State) (x : BusAccess) : (noteAccess s x).breakFlag = s.breakFlag := rfl
@[simp] theorem noteAccess_breakpoints (s : State) (x : BusAccess) : (noteAccess s x).breakpoints = s.breakpoints := rfl
@[simp] theorem noteAccess_cycleBudget (s : State) (x : BusAccess) : (noteAccess s x).cycleBudget = s.cycleBudget - accessCycles s.accessTable x.seq x.is32 x.addr := rfl
@[simp] theorem noteAccess_accessTable (s : State) (x : BusAccess) : (noteAccess s x).accessTable = s.accessTable := rfl
@[simp] theorem noteAccess_costRule (s : State) (x : BusAccess) : (noteAccess s x).costRule = s.costRule := rfl
@[simp] theorem noteAccess_bus (s : State) (x : BusAccess) : (noteAccess s x).bus = s.bus ++ [x] := rfl
@[simp] theorem noteAccess_draws (s : State) (x : BusAccess) : (noteAccess s x).draws = s.draws := rfl

/-! ## `noteLoad` -/

@[simp] theorem noteLoad_usr (s : State) (q : Bool) (k : LoadKind) (a : Word) : (noteLoad s q k a).usr = s.usr := rfl
@[simp] theorem noteLoad_fiq (s : State) (q : Bool) (k : LoadKind) (a : Word) : (noteLoad s q k a).fiq = s.fiq := rfl
@[simp] theorem noteLoad_svc (s : State) (q : Bool) (k : LoadKind) (a : Word) : (noteLoad s q k a).svc = s.svc := rfl
@[simp] theorem noteLoad_abt (s : State) (q : Bool) (k : LoadKind) (a : Word) : (noteLoad s q k a).abt = s.abt := rfl
@[simp] theorem noteLoad_irq (s : State) (q : Bool) (k : LoadKind) (a : Word) : (noteLoad s q k a).irq = s.irq := rfl
@[simp] theorem noteLoad_und (s : State) (q : Bool) (k : LoadKind) (a : Word) : (noteLoad s q k a).und = s.und := rfl
@[simp] theorem noteLoad_pc (s : State) (q : Bool) (k : LoadKind) (a : Word) : (noteLoad s q k a).pc = s.pc := rfl
@[simp] theorem noteLoad_cpsr (s : State) (q : Bool) (k : LoadKind) (a : Word) : (noteLoad s q k a).cpsr = s.cpsr := rfl
@[simp] theorem noteLoad_spsrFiq (s : State) (q : Bool) (k : LoadKind) (a : Word) : (noteLoad s q k a).spsrFiq = s.spsrFiq := rfl
@[simp] theorem noteLoad_spsrSvc (s : State) (q : Bool) (k : LoadKind) (a : Word) : (noteLoad s q k a).spsrSvc = s.spsrSvc := rfl
@[simp] theorem noteLoad_spsrAbt (s : State) (q : Bool) (k : LoadKind) (a : Word) : (noteLoad s q k a).spsrAbt = s.spsrAbt := rfl
@[simp] theorem noteLoad_spsrIrq (s : State) (q : Bool) (k : LoadKind) (a : Word) : (noteLoad s q k a).spsrIrq = s.spsrIrq := rfl
@[simp] theorem noteLoad_spsrUnd (s : State) (q : Bool) (k : LoadKind) (a : Word) : (noteLoad s q k a).spsrUnd = s.spsrUnd := rfl
@[simp] theorem noteLoad_lastFetch (s : State) (q : Bool) (k : LoadKind) (a : Word) : (noteLoad s q k a).lastFetch = s.lastFetch := rfl
@[simp] theorem noteLoad_userBankHazard (s : State) (q : Bool) (k : LoadKind) (a : Word) : (noteLoad s q k a).userBankHazard = s.userBankHazard := rfl
@[simp] theorem noteLoad_mem (s : State) (q : Bool) (k : LoadKind) (a : Word) : (noteLoad s q k a).mem = s.mem := rfl
@[simp] theorem noteLoad_devices (s : State) (q : Bool) (k : LoadKind) (a : Word) : (noteLoad s q k a).devices = s.devices := rfl
@[simp] theorem noteLoad_irqLine (s : State) (q : Bool) (k : LoadKind) (a : Word) : (noteLoad s q k a).irqLine = s.irqLine := rfl
@[simp] theorem noteLoad_breakFlag (s : State) (q : Bool) (k : LoadKind) (a : Word) : (noteLoad s q k a).breakFlag = s.breakFlag := rfl
@[simp] theorem noteLoad_breakpoints (s : State) (q : Bool) (k : LoadKind) (a : Word) : (noteLoad s q k a).breakpoints = s.breakpoints := rfl
@[simp] theorem noteLoad_accessTable (s : State) (q : Bool) (k : LoadKind) (a : Word) : (noteLoad s q k a).accessTable = s.accessTable := rfl
@[simp] theorem noteLoad_costRule (s : State) (q : Bool) (k : LoadKind) (a : Word) : (noteLoad s q k a).costRule = s.costRule := rfl
@[simp] theorem noteLoad_draws (s : State) (q : Bool) (k : LoadKind) (a : Word) : (noteLoad s q k a).draws = s.draws := rfl

/-! ## `drew` -/

@[simp] theorem drew_usr (s : State) : (drew s).usr = s.usr := rfl
@[simp] theorem drew_fiq (s : State) : (drew s).fiq = s.fiq := rfl
@[simp] theorem drew_svc (s : State) : (drew s).svc = s.svc := rfl
@[simp] theorem drew_abt (s : State) : (drew s).abt = s.abt := rfl
@[simp] theorem drew_irq (s : State) : (drew s).irq = s.irq := rfl
@[simp] theorem drew_und (s : State) : (drew s).und = s.und := rfl
@[simp] theorem drew_pc (s : State) : (drew s).pc = s.pc := rfl
@[simp] theorem drew_cpsr (s : State) : (drew s).cpsr = s.cpsr := rfl
@[simp] theorem drew_spsrFiq (s : State) : (drew s).spsrFiq = s.spsrFiq := rfl
@[simp] theorem drew_spsrSvc (s : State) : (drew s).spsrSvc = s.spsrSvc := rfl
@[simp] theorem drew_spsrAbt (s : State) : (drew s).spsrAbt = s.spsrAbt := rfl
@[simp] theorem drew_spsrIrq (s : State) : (drew s).spsrIrq = s.spsrIrq := rfl
@[simp] theorem drew_spsrUnd (s : State) : (drew s).spsrUnd = s.spsrUnd := rfl
@[simp] theorem drew_lastFetch (s : State) : (drew s).lastFetch = s.lastFetch := rfl
@[simp] theorem drew_userBankHazard (s : State) : (drew s).userBankHazard = s.userBankHazard := rfl
@[simp] theorem drew_mem (s : State) : (drew s).mem = s.mem := rfl
@[simp] theorem drew_devices (s : State) : (drew s).devices = s.devices := rfl
@[simp] theorem drew_platform (s : State) : (drew s).platform = s.platform := rfl
@[simp] theorem drew_irqLine (s : State) : (drew s).irqLine = s.irqLine := rfl
@[simp] theorem drew_breakFlag (s : State) : (drew s).breakFlag = s.breakFlag := rfl
@[simp] theorem drew_breakpoints (s : State) : (drew s).breakpoints = s.breakpoints := rfl
@[simp] theorem drew_cycleBudget (s : State) : (drew s).cycleBudget = s.cycleBudget := rfl
@[simp] theorem drew_accessTable (s : State) : (drew s).accessTable = s.accessTable := rfl
@[simp] theorem drew_costRule (s : State) : (drew s).costRule = s.costRule := rfl
@[simp] theorem drew_bus (s : State) : (drew s).bus = s.bus := rfl
@[simp] theorem drew_draws (s : State) : (drew s).draws = s.draws + 1 := rfl

/-! ## `refill` -/

@[simp] theorem refill_usr (s : State) : (refill s).usr = s.usr := rfl
@[simp] theorem refill_fiq (s : State) : (refill s).fiq = s.fiq := rfl
@[simp] theorem refill_svc (s : State) : (refill s).svc = s.svc := rfl
@[simp] theorem refill_abt (s : State) : (refill s).abt = s.abt := rfl
@[simp] theorem refill_irq (s : State) : (refill s).irq = s.irq := rfl
@[simp] theorem refill_und (s : State) : (refill s).und = s.und := rfl
@[simp] theorem refill_pc (s : State) : (refill s).pc = s.pc := rfl
@[simp] theorem refill_cpsr (s : State) : (refill s).cpsr = s.cpsr := rfl
@[simp] theorem refill_spsrFiq (s : State) : (refill s).spsrFiq = s.spsrFiq := rfl
@[simp] theorem refill_spsrSvc (s : State) : (refill s).spsrSvc = s.spsrSvc := rfl
@[simp] theorem refill_spsrAbt (s : State) : (refill s).spsrAbt = s.spsrAbt := rfl
@[simp] theorem refill_spsrIrq (s : State) : (refill s).spsrIrq = s.spsrIrq := rfl
@[simp] theorem refill_spsrUnd (s : State) : (refill s).spsrUnd = s.spsrUnd := rfl
@[simp] theorem refill_lastFetch (s : State) : (refill s).lastFetch = s.lastFetch := rfl
@[simp] theorem refill_userBankHazard (s : State) : (refill s).userBankHazard = s.userBankHazard := rfl
@[simp] theorem refill_mem (s : State) : (refill s).mem = s.mem := rfl
@[simp] theorem refill_devices (s : State) : (refill s).devices = s.devices := rfl
@[simp] theorem refill_platform (s : State) : (refill s).platform = s.platform := rfl
@[simp] theorem refill_irqLine (s : State) : (refill s).irqLine = s.irqLine := rfl
@[simp] theorem refill_breakFlag (s : State) : (refill s).breakFlag = s.breakFlag := rfl
@[simp] theorem refill_breakpoints (s : State) : (refill s).breakpoints = s.breakpoints := rfl
@[simp] theorem refill_accessTable (s : State) : (refill s).accessTable = s.accessTable := rfl
@[simp] theorem refill_costRule (s : State) : (refill s).costRule = s.costRule := rfl
@[simp] theorem refill_bus (s : State) : (refill s).bus = s.bus := rfl
@[simp] theorem refill_draws (s : State) : (refill s).draws = s.draws := rfl

/-! ## `advance` -/

@[simp] theorem advance_usr (s : State) : (advance s).usr = s.usr := rfl
@[simp] theorem advance_fiq (s : State) : (advance s).fiq = s.fiq := rfl
@[simp] theorem advance_svc (s : State) : (advance s).svc = s.svc := rfl
@[simp] theorem advance_abt (s : State) : (advance s).abt = s.abt := rfl
@[simp] theorem advance_irq (s : State) : (advance s).irq = s.irq := rfl
@[simp] theorem advance_und (s : State) : (advance s).und = s.und := rfl
@[simp] theorem advance_pc (s : State) : (advance s).pc = s.pc + instrWidth s := rfl
@[simp] theorem advance_cpsr (s : State) : (advance s).cpsr = s.cpsr := rfl
@[simp] theorem advance_spsrFiq (s : State) : (advance s).spsrFiq = s.spsrFiq := rfl
@[simp] theorem advance_spsrSvc (s : State) : (advance s).spsrSvc = s.spsrSvc := rfl
@[simp] theorem advance_spsrAbt (s : State) : (advance s).spsrAbt = s.spsrAbt := rfl
@[simp] theorem advance_spsrIrq (s : State) : (advance s).spsrIrq = s.spsrIrq := rfl
@[simp] theorem advance_spsrUnd (s : State) : (advance s).spsrUnd = s.spsrUnd := rfl
@[simp] theorem advance_lastFetch (s : State) : (advance s).lastFetch = s.lastFetch := rfl
@[simp] theorem advance_userBankHazard (s : State) : (advance s).userBankHazard = false := rfl
@[simp] theorem advance_mem (s : State) : (advance s).mem = s.mem := rfl
@[simp] theorem advance_devices (s : State) : (advance s).devices = s.devices := rfl
@[simp] theorem advance_platform (s : State) : (advance s).platform = s.platform := rfl
@[simp] theorem advance_irqLine (s : State) : (advance s).irqLine = s.irqLine := rfl
@[simp] theorem advance_breakFlag (s : State) : (advance s).breakFlag = s.breakFlag := rfl
@[simp] theorem advance_breakpoints (s : State) : (advance s).breakpoints = s.breakpoints := rfl
@[simp] theorem advance_cycleBudget (s : State) : (advance s).cycleBudget = s.cycleBudget := rfl
@[simp] theorem advance_accessTable (s : State) : (advance s).accessTable = s.accessTable := rfl
@[simp] theorem advance_costRule (s : State) : (advance s).costRule = s.costRule := rfl
@[simp] theorem advance_bus (s : State) : (advance s).bus = s.bus := rfl
@[simp] theorem advance_draws (s : State) : (advance s).draws = s.draws := rfl

/-! ## `writePc` -/

@[simp] theorem writePc_usr (s : State) (v : Word) : (writePc s v).usr = s.usr := rfl
@[simp] theorem writePc_fiq (s : State) (v : Word) : (writePc s v).fiq = s.fiq := rfl
@[simp] theorem writePc_svc (s : State) (v : Word) : (writePc s v).svc = s.svc := rfl
@[simp] theorem writePc_abt (s : State) (v : Word) : (writePc s v).abt = s.abt := rfl
@[simp] theorem writePc_irq (s : State) (v : Word) : (writePc s v).irq = s.irq := rfl
@[simp] theorem writePc_und (s : State) (v : Word) : (writePc s v).und = s.und := rfl
@[simp] theorem writePc_pc (s : State) (v : Word) : (writePc s v).pc = fetchAddress s.cpsr.t v := rfl
@[simp] theorem writePc_cpsr (s : State) (v : Word) : (writePc s v).cpsr = s.cpsr := rfl
@[simp] theorem writePc_spsrFiq (s : State) (v : Word) : (writePc s v).spsrFiq = s.spsrFiq := rfl
@[simp] theorem writePc_spsrSvc (s : State) (v : Word) : (writePc s v).spsrSvc = s.spsrSvc := rfl
@[simp] theorem writePc_spsrAbt (s : State) (v : Word) : (writePc s v).spsrAbt = s.spsrAbt := rfl
@[simp] theorem writePc_spsrIrq (s : State) (v : Word) : (writePc s v).spsrIrq = s.spsrIrq := rfl
@[simp] theorem writePc_spsrUnd (s : State) (v : Word) : (writePc s v).spsrUnd = s.spsrUnd := rfl
@[simp] theorem writePc_lastFetch (s : State) (v : Word) : (writePc s v).lastFetch = none := rfl
@[simp] theorem writePc_userBankHazard (s : State) (v : Word) : (writePc s v).userBankHazard = false := rfl
@[simp] theorem writePc_mem (s : State) (v : Word) : (writePc s v).mem = s.mem := rfl
@[simp] theorem writePc_devices (s : State) (v : Word) : (writePc s v).devices = s.devices := rfl
@[simp] theorem writePc_platform (s : State) (v : Word) : (writePc s v).platform = s.platform := rfl
@[simp] theorem writePc_irqLine (s : State) (v : Word) : (writePc s v).irqLine = s.irqLine := rfl
@[simp] theorem writePc_breakFlag (s : State) (v : Word) : (writePc s v).breakFlag = s.breakFlag := rfl
@[simp] theorem writePc_breakpoints (s : State) (v : Word) : (writePc s v).breakpoints = s.breakpoints := rfl
@[simp] theorem writePc_accessTable (s : State) (v : Word) : (writePc s v).accessTable = s.accessTable := rfl
@[simp] theorem writePc_costRule (s : State) (v : Word) : (writePc s v).costRule = s.costRule := rfl
@[simp] theorem writePc_bus (s : State) (v : Word) : (writePc s v).bus = s.bus := rfl
@[simp] theorem writePc_draws (s : State) (v : Word) : (writePc s v).draws = s.draws := rfl

/-! ## `setSpsr` -/

@[simp] theorem setSpsr_usr (s : State) (n : SpsrName) (v : Word) : (setSpsr s n v).usr = s.usr := by cases n <;> rfl
@[simp] theorem setSpsr_fiq (s : State) (n : SpsrName) (v : Word) : (setSpsr s n v).fiq = s.fiq := by cases n <;> rfl
@[simp] theorem setSpsr_svc (s : State) (n : SpsrName) (v : Word) : (setSpsr s n v).svc = s.svc := by cases n <;> rfl
@[simp] theorem setSpsr_abt (s : State) (n : SpsrName) (v : Word) : (setSpsr s n v).abt = s.abt := by cases n <;> rfl
@[simp] theorem setSpsr_irq (s : State) (n : SpsrName) (v : Word) : (setSpsr s n v).irq = s.irq := by cases n <;> rfl
@[simp] theorem setSpsr_und (s : State) (n : SpsrName) (v : Word) : (setSpsr s n v).und = s.und := by cases n <;> rfl
@[simp] theorem setSpsr_pc (s : State) (n : SpsrName) (v : Word) : (setSpsr s n v).pc = s.pc := by cases n <;> rfl
@[simp] theorem setSpsr_cpsr (s : State) (n : SpsrName) (v : Word) : (setSpsr s n v).cpsr = s.cpsr := by cases n <;> rfl
@[simp] theorem setSpsr_lastFetch (s : State) (n : SpsrName) (v : Word) : (setSpsr s n v).lastFetch = s.lastFetch := by cases n <;> rfl
@[simp] theorem setSpsr_userBankHazard (s : State) (n : SpsrName) (v : Word) : (setSpsr s n v).userBankHazard = s.userBankHazard := by cases n <;> rfl
@[simp] theorem setSpsr_mem (s : State) (n : SpsrName) (v : Word) : (setSpsr s n v).mem = s.mem := by cases n <;> rfl
@[simp] theorem setSpsr_devices (s : State) (n : SpsrName) (v : Word) : (setSpsr s n v).devices = s.devices := by cases n <;> rfl
@[simp] theorem setSpsr_platform (s : State) (n : SpsrName) (v : Word) : (setSpsr s n v).platform = s.platform := by cases n <;> rfl
@[simp] theorem setSpsr_irqLine (s : State) (n : SpsrName) (v : Word) : (setSpsr s n v).irqLine = s.irqLine := by cases n <;> rfl
@[simp] theorem setSpsr_breakFlag (s : State) (n : SpsrName) (v : Word) : (setSpsr s n v).breakFlag = s.breakFlag := by cases n <;> rfl
@[simp] theorem setSpsr_breakpoints (s : State) (n : SpsrName) (v : Word) : (setSpsr s n v).breakpoints = s.breakpoints := by cases n <;> rfl
@[simp] theorem setSpsr_cycleBudget (s : State) (n : SpsrName) (v : Word) : (setSpsr s n v).cycleBudget = s.cycleBudget := by cases n <;> rfl
@[simp] theorem setSpsr_accessTable (s : State) (n : SpsrName) (v : Word) : (setSpsr s n v).accessTable = s.accessTable := by cases n <;> rfl
@[simp] theorem setSpsr_costRule (s : State) (n : SpsrName) (v : Word) : (setSpsr s n v).costRule = s.costRule := by cases n <;> rfl
@[simp] theorem setSpsr_bus (s : State) (n : SpsrName) (v : Word) : (setSpsr s n v).bus = s.bus := by cases n <;> rfl
@[simp] theorem setSpsr_draws (s : State) (n : SpsrName) (v : Word) : (setSpsr s n v).draws = s.draws := by cases n <;> rfl

/-! ## `writePhys` -/

@[simp] theorem writePhys_cpsr (s : State) (p : PhysReg) (v : Word) : (writePhys s p v).cpsr = s.cpsr := by cases p <;> rfl
@[simp] theorem writePhys_spsrFiq (s : State) (p : PhysReg) (v : Word) : (writePhys s p v).spsrFiq = s.spsrFiq := by cases p <;> rfl
@[simp] theorem writePhys_spsrSvc (s : State) (p : PhysReg) (v : Word) : (writePhys s p v).spsrSvc = s.spsrSvc := by cases p <;> rfl
@[simp] theorem writePhys_spsrAbt (s : State) (p : PhysReg) (v : Word) : (writePhys s p v).spsrAbt = s.spsrAbt := by cases p <;> rfl
@[simp] theorem writePhys_spsrIrq (s : State) (p : PhysReg) (v : Word) : (writePhys s p v).spsrIrq = s.spsrIrq := by cases p <;> rfl
@[simp] theorem writePhys_spsrUnd (s : State) (p : PhysReg) (v : Word) : (writePhys s p v).spsrUnd = s.spsrUnd := by cases p <;> rfl
@[simp] theorem writePhys_lastFetch (s : State) (p : PhysReg) (v : Word) : (writePhys s p v).lastFetch = s.lastFetch := by cases p <;> rfl
@[simp] theorem writePhys_userBankHazard (s : State) (p : PhysReg) (v : Word) : (writePhys s p v).userBankHazard = s.userBankHazard := by cases p <;> rfl
@[simp] theorem writePhys_mem (s : State) (p : PhysReg) (v : Word) : (writePhys s p v).mem = s.mem := by cases p <;> rfl
@[simp] theorem writePhys_devices (s : State) (p : PhysReg) (v : Word) : (writePhys s p v).devices = s.devices := by cases p <;> rfl
@[simp] theorem writePhys_platform (s : State) (p : PhysReg) (v : Word) : (writePhys s p v).platform = s.platform := by cases p <;> rfl
@[simp] theorem writePhys_irqLine (s : State) (p : PhysReg) (v : Word) : (writePhys s p v).irqLine = s.irqLine := by cases p <;> rfl
@[simp] theorem writePhys_breakFlag (s : State) (p : PhysReg) (v : Word) : (writePhys s p v).breakFlag = s.breakFlag := by cases p <;> rfl
@[simp] theorem writePhys_breakpoints (s : State) (p : PhysReg) (v : Word) : (writePhys s p v).breakpoints = s.breakpoints := by cases p <;> rfl
@[simp] theorem writePhys_cycleBudget (s : State) (p : PhysReg) (v : Word) : (writePhys s p v).cycleBudget = s.cycleBudget := by cases p <;> rfl
@[simp] theorem writePhys_accessTable (s : State) (p : PhysReg) (v : Word) : (writePhys s p v).accessTable = s.accessTable := by cases p <;> rfl
@[simp] theorem writePhys_costRule (s : State) (p : PhysReg) (v : Word) : (writePhys s p v).costRule = s.costRule := by cases p <;> rfl
@[simp] theorem writePhys_bus (s : State) (p : PhysReg) (v : Word) : (writePhys s p v).bus = s.bus := by cases p <;> rfl
@[simp] theorem writePhys_draws (s : State) (p : PhysReg) (v : Word) : (writePhys s p v).draws = s.draws := by cases p <;> rfl

/-! ## `setReg` -/

@[simp] theorem setReg_cpsr (s : State) (r : Reg) (v : Word) : (setReg s r v).cpsr = s.cpsr := by simp [setReg]
@[simp] theorem setReg_spsrFiq (s : State) (r : Reg) (v : Word) : (setReg s r v).spsrFiq = s.spsrFiq := by simp [setReg]
@[simp] theorem setReg_spsrSvc (s : State) (r : Reg) (v : Word) : (setReg s r v).spsrSvc = s.spsrSvc := by simp [setReg]
@[simp] theorem setReg_spsrAbt (s : State) (r : Reg) (v : Word) : (setReg s r v).spsrAbt = s.spsrAbt := by simp [setReg]
@[simp] theorem setReg_spsrIrq (s : State) (r : Reg) (v : Word) : (setReg s r v).spsrIrq = s.spsrIrq := by simp [setReg]
@[simp] theorem setReg_spsrUnd (s : State) (r : Reg) (v : Word) : (setReg s r v).spsrUnd = s.spsrUnd := by simp [setReg]
@[simp] theorem setReg_lastFetch (s : State) (r : Reg) (v : Word) : (setReg s r v).lastFetch = s.lastFetch := by simp [setReg]
@[simp] theorem setReg_userBankHazard (s : State) (r : Reg) (v : Word) : (setReg s r v).userBankHazard = s.userBankHazard := by simp [setReg]
@[simp] theorem setReg_mem (s : State) (r : Reg) (v : Word) : (setReg s r v).mem = s.mem := by simp [setReg]
@[simp] theorem setReg_devices (s : State) (r : Reg) (v : Word) : (setReg s r v).devices = s.devices := by simp [setReg]
@[simp] theorem setReg_platform (s : State) (r : Reg) (v : Word) : (setReg s r v).platform = s.platform := by simp [setReg]
@[simp] theorem setReg_irqLine (s : State) (r : Reg) (v : Word) : (setReg s r v).irqLine = s.irqLine := by simp [setReg]
@[simp] theorem setReg_breakFlag (s : State) (r : Reg) (v : Word) : (setReg s r v).breakFlag = s.breakFlag := by simp [setReg]
@[simp] theorem setReg_breakpoints (s : State) (r : Reg) (v : Word) : (setReg s r v).breakpoints = s.breakpoints := by simp [setReg]
@[simp] theorem setReg_cycleBudget (s : State) (r : Reg) (v : Word) : (setReg s r v).cycleBudget = s.cycleBudget := by simp [setReg]
@[simp] theorem setReg_accessTable (s : State) (r : Reg) (v : Word) : (setReg s r v).accessTable = s.accessTable := by simp [setReg]
@[simp] theorem setReg_costRule (s : State) (r : Reg) (v : Word) : (setReg s r v).costRule = s.costRule := by simp [setReg]
@[simp] theorem setReg_bus (s : State) (r : Reg) (v : Word) : (setReg s r v).bus = s.bus := by simp [setReg]
@[simp] theorem setReg_draws (s : State) (r : Reg) (v : Word) : (setReg s r v).draws = s.draws := by simp [setReg]

/-! ## `setUsrReg` -/

@[simp] theorem setUsrReg_cpsr (s : State) (r : Reg) (v : Word) : (setUsrReg s r v).cpsr = s.cpsr := by simp [setUsrReg]
@[simp] theorem setUsrReg_spsrFiq (s : State) (r : Reg) (v : Word) : (setUsrReg s r v).spsrFiq = s.spsrFiq := by simp [setUsrReg]
@[simp] theorem setUsrReg_spsrSvc (s : State) (r : Reg) (v : Word) : (setUsrReg s r v).spsrSvc = s.spsrSvc := by simp [setUsrReg]
@[simp] theorem setUsrReg_spsrAbt (s : State) (r : Reg) (v : Word) : (setUsrReg s r v).spsrAbt = s.spsrAbt := by simp [setUsrReg]
@[simp] theorem setUsrReg_spsrIrq (s : State) (r : Reg) (v : Word) : (setUsrReg s r v).spsrIrq = s.spsrIrq := by simp [setUsrReg]
@[simp] theorem setUsrReg_spsrUnd (s : State) (r : Reg) (v : Word) : (setUsrReg s r v).spsrUnd = s.spsrUnd := by simp [setUsrReg]
@[simp] theorem setUsrReg_lastFetch (s : State) (r : Reg) (v : Word) : (setUsrReg s r v).lastFetch = s.lastFetch := by simp [setUsrReg]
@[simp] theorem setUsrReg_userBankHazard (s : State) (r : Reg) (v : Word) : (setUsrReg s r v).userBankHazard = s.userBankHazard := by simp [setUsrReg]
@[simp] theorem setUsrReg_mem (s : State) (r : Reg) (v : Word) : (setUsrReg s r v).mem = s.mem := by simp [setUsrReg]
@[simp] theorem setUsrReg_devices (s : State) (r : Reg) (v : Word) : (setUsrReg s r v).devices = s.devices := by simp [setUsrReg]
@[simp] theorem setUsrReg_platform (s : State) (r : Reg) (v : Word) : (setUsrReg s r v).platform = s.platform := by simp [setUsrReg]
@[simp] theorem setUsrReg_irqLine (s : State) (r : Reg) (v : Word) : (setUsrReg s r v).irqLine = s.irqLine := by simp [setUsrReg]
@[simp] theorem setUsrReg_breakFlag (s : State) (r : Reg) (v : Word) : (setUsrReg s r v).breakFlag = s.breakFlag := by simp [setUsrReg]
@[simp] theorem setUsrReg_breakpoints (s : State) (r : Reg) (v : Word) : (setUsrReg s r v).breakpoints = s.breakpoints := by simp [setUsrReg]
@[simp] theorem setUsrReg_cycleBudget (s : State) (r : Reg) (v : Word) : (setUsrReg s r v).cycleBudget = s.cycleBudget := by simp [setUsrReg]
@[simp] theorem setUsrReg_accessTable (s : State) (r : Reg) (v : Word) : (setUsrReg s r v).accessTable = s.accessTable := by simp [setUsrReg]
@[simp] theorem setUsrReg_costRule (s : State) (r : Reg) (v : Word) : (setUsrReg s r v).costRule = s.costRule := by simp [setUsrReg]
@[simp] theorem setUsrReg_bus (s : State) (r : Reg) (v : Word) : (setUsrReg s r v).bus = s.bus := by simp [setUsrReg]
@[simp] theorem setUsrReg_draws (s : State) (r : Reg) (v : Word) : (setUsrReg s r v).draws = s.draws := by simp [setUsrReg]

/-! ## `debit` -/

@[simp] theorem debit_usr (s t : State) : (debit s t).usr = t.usr := by unfold debit; split <;> rfl
@[simp] theorem debit_fiq (s t : State) : (debit s t).fiq = t.fiq := by unfold debit; split <;> rfl
@[simp] theorem debit_svc (s t : State) : (debit s t).svc = t.svc := by unfold debit; split <;> rfl
@[simp] theorem debit_abt (s t : State) : (debit s t).abt = t.abt := by unfold debit; split <;> rfl
@[simp] theorem debit_irq (s t : State) : (debit s t).irq = t.irq := by unfold debit; split <;> rfl
@[simp] theorem debit_und (s t : State) : (debit s t).und = t.und := by unfold debit; split <;> rfl
@[simp] theorem debit_pc (s t : State) : (debit s t).pc = t.pc := by unfold debit; split <;> rfl
@[simp] theorem debit_cpsr (s t : State) : (debit s t).cpsr = t.cpsr := by unfold debit; split <;> rfl
@[simp] theorem debit_spsrFiq (s t : State) : (debit s t).spsrFiq = t.spsrFiq := by unfold debit; split <;> rfl
@[simp] theorem debit_spsrSvc (s t : State) : (debit s t).spsrSvc = t.spsrSvc := by unfold debit; split <;> rfl
@[simp] theorem debit_spsrAbt (s t : State) : (debit s t).spsrAbt = t.spsrAbt := by unfold debit; split <;> rfl
@[simp] theorem debit_spsrIrq (s t : State) : (debit s t).spsrIrq = t.spsrIrq := by unfold debit; split <;> rfl
@[simp] theorem debit_spsrUnd (s t : State) : (debit s t).spsrUnd = t.spsrUnd := by unfold debit; split <;> rfl
@[simp] theorem debit_lastFetch (s t : State) : (debit s t).lastFetch = t.lastFetch := by unfold debit; split <;> rfl
@[simp] theorem debit_userBankHazard (s t : State) : (debit s t).userBankHazard = t.userBankHazard := by unfold debit; split <;> rfl
@[simp] theorem debit_mem (s t : State) : (debit s t).mem = t.mem := by unfold debit; split <;> rfl
@[simp] theorem debit_devices (s t : State) : (debit s t).devices = t.devices := by unfold debit; split <;> rfl
@[simp] theorem debit_platform (s t : State) : (debit s t).platform = t.platform := by unfold debit; split <;> rfl
@[simp] theorem debit_irqLine (s t : State) : (debit s t).irqLine = t.irqLine := by unfold debit; split <;> rfl
@[simp] theorem debit_breakFlag (s t : State) : (debit s t).breakFlag = t.breakFlag := by unfold debit; split <;> rfl
@[simp] theorem debit_breakpoints (s t : State) : (debit s t).breakpoints = t.breakpoints := by unfold debit; split <;> rfl
@[simp] theorem debit_accessTable (s t : State) : (debit s t).accessTable = t.accessTable := by unfold debit; split <;> rfl
@[simp] theorem debit_costRule (s t : State) : (debit s t).costRule = t.costRule := by unfold debit; split <;> rfl
@[simp] theorem debit_bus (s t : State) : (debit s t).bus = t.bus := by unfold debit; split <;> rfl
@[simp] theorem debit_draws (s t : State) : (debit s t).draws = t.draws := by unfold debit; split <;> rfl

/-! ## `fetched` -/

@[simp] theorem fetched_usr (s : State) : (fetched s).usr = s.usr := rfl
@[simp] theorem fetched_fiq (s : State) : (fetched s).fiq = s.fiq := rfl
@[simp] theorem fetched_svc (s : State) : (fetched s).svc = s.svc := rfl
@[simp] theorem fetched_abt (s : State) : (fetched s).abt = s.abt := rfl
@[simp] theorem fetched_irq (s : State) : (fetched s).irq = s.irq := rfl
@[simp] theorem fetched_und (s : State) : (fetched s).und = s.und := rfl
@[simp] theorem fetched_pc (s : State) : (fetched s).pc = s.pc := rfl
@[simp] theorem fetched_cpsr (s : State) : (fetched s).cpsr = s.cpsr := rfl
@[simp] theorem fetched_spsrFiq (s : State) : (fetched s).spsrFiq = s.spsrFiq := rfl
@[simp] theorem fetched_spsrSvc (s : State) : (fetched s).spsrSvc = s.spsrSvc := rfl
@[simp] theorem fetched_spsrAbt (s : State) : (fetched s).spsrAbt = s.spsrAbt := rfl
@[simp] theorem fetched_spsrIrq (s : State) : (fetched s).spsrIrq = s.spsrIrq := rfl
@[simp] theorem fetched_spsrUnd (s : State) : (fetched s).spsrUnd = s.spsrUnd := rfl
@[simp] theorem fetched_lastFetch (s : State) : (fetched s).lastFetch = some s.pc := rfl
@[simp] theorem fetched_userBankHazard (s : State) : (fetched s).userBankHazard = s.userBankHazard := rfl
@[simp] theorem fetched_mem (s : State) : (fetched s).mem = s.mem := rfl
@[simp] theorem fetched_devices (s : State) : (fetched s).devices = s.devices := rfl
@[simp] theorem fetched_irqLine (s : State) : (fetched s).irqLine = s.irqLine := rfl
@[simp] theorem fetched_breakFlag (s : State) : (fetched s).breakFlag = s.breakFlag := rfl
@[simp] theorem fetched_breakpoints (s : State) : (fetched s).breakpoints = s.breakpoints := rfl
@[simp] theorem fetched_accessTable (s : State) : (fetched s).accessTable = s.accessTable := rfl
@[simp] theorem fetched_costRule (s : State) : (fetched s).costRule = s.costRule := rfl
@[simp] theorem fetched_draws (s : State) : (fetched s).draws = s.draws := rfl

/-! ## `enterException` -/

@[simp] theorem enterException_pc (k : ExceptionKind) (ret : Word) (s : State) : (enterException k ret s).pc = k.vector := rfl
@[simp] theorem enterException_cpsr (k : ExceptionKind) (ret : Word) (s : State) : (enterException k ret s).cpsr = { s.cpsr with mode := k.mode, t := false, i := true } := rfl
@[simp] theorem enterException_lastFetch (k : ExceptionKind) (ret : Word) (s : State) : (enterException k ret s).lastFetch = none := rfl
@[simp] theorem enterException_userBankHazard (k : ExceptionKind) (ret : Word) (s : State) : (enterException k ret s).userBankHazard = false := rfl
@[simp] theorem enterException_mem (k : ExceptionKind) (ret : Word) (s : State) : (enterException k ret s).mem = s.mem := by cases k <;> rfl
@[simp] theorem enterException_devices (k : ExceptionKind) (ret : Word) (s : State) : (enterException k ret s).devices = s.devices := by cases k <;> rfl
@[simp] theorem enterException_platform (k : ExceptionKind) (ret : Word) (s : State) : (enterException k ret s).platform = s.platform := by cases k <;> rfl
@[simp] theorem enterException_irqLine (k : ExceptionKind) (ret : Word) (s : State) : (enterException k ret s).irqLine = s.irqLine := by cases k <;> rfl
@[simp] theorem enterException_breakFlag (k : ExceptionKind) (ret : Word) (s : State) : (enterException k ret s).breakFlag = s.breakFlag := by cases k <;> rfl
@[simp] theorem enterException_breakpoints (k : ExceptionKind) (ret : Word) (s : State) : (enterException k ret s).breakpoints = s.breakpoints := by cases k <;> rfl
@[simp] theorem enterException_accessTable (k : ExceptionKind) (ret : Word) (s : State) : (enterException k ret s).accessTable = s.accessTable := by cases k <;> rfl
@[simp] theorem enterException_costRule (k : ExceptionKind) (ret : Word) (s : State) : (enterException k ret s).costRule = s.costRule := by cases k <;> rfl
@[simp] theorem enterException_bus (k : ExceptionKind) (ret : Word) (s : State) : (enterException k ret s).bus = s.bus := by cases k <;> rfl
@[simp] theorem enterException_draws (k : ExceptionKind) (ret : Word) (s : State) : (enterException k ret s).draws = s.draws + 1 := by cases k <;> rfl

/-! ## `placeNext` -/

@[simp] theorem placeNext_usr (s : State) (th : Bool) (bs : List Byte) : (placeNext s th bs).usr = s.usr := rfl
@[simp] theorem placeNext_fiq (s : State) (th : Bool) (bs : List Byte) : (placeNext s th bs).fiq = s.fiq := rfl
@[simp] theorem placeNext_svc (s : State) (th : Bool) (bs : List Byte) : (placeNext s th bs).svc = s.svc := rfl
@[simp] theorem placeNext_abt (s : State) (th : Bool) (bs : List Byte) : (placeNext s th bs).abt = s.abt := rfl
@[simp] theorem placeNext_irq (s : State) (th : Bool) (bs : List Byte) : (placeNext s th bs).irq = s.irq := rfl
@[simp] theorem placeNext_und (s : State) (th : Bool) (bs : List Byte) : (placeNext s th bs).und = s.und := rfl
@[simp] theorem placeNext_pc (s : State) (th : Bool) (bs : List Byte) : (placeNext s th bs).pc = s.pc := rfl
@[simp] theorem placeNext_cpsr (s : State) (th : Bool) (bs : List Byte) : (placeNext s th bs).cpsr = { s.cpsr with t := th } := rfl
@[simp] theorem placeNext_spsrFiq (s : State) (th : Bool) (bs : List Byte) : (placeNext s th bs).spsrFiq = s.spsrFiq := rfl
@[simp] theorem placeNext_spsrSvc (s : State) (th : Bool) (bs : List Byte) : (placeNext s th bs).spsrSvc = s.spsrSvc := rfl
@[simp] theorem placeNext_spsrAbt (s : State) (th : Bool) (bs : List Byte) : (placeNext s th bs).spsrAbt = s.spsrAbt := rfl
@[simp] theorem placeNext_spsrIrq (s : State) (th : Bool) (bs : List Byte) : (placeNext s th bs).spsrIrq = s.spsrIrq := rfl
@[simp] theorem placeNext_spsrUnd (s : State) (th : Bool) (bs : List Byte) : (placeNext s th bs).spsrUnd = s.spsrUnd := rfl
@[simp] theorem placeNext_lastFetch (s : State) (th : Bool) (bs : List Byte) : (placeNext s th bs).lastFetch = s.lastFetch := rfl
@[simp] theorem placeNext_userBankHazard (s : State) (th : Bool) (bs : List Byte) : (placeNext s th bs).userBankHazard = s.userBankHazard := rfl
@[simp] theorem placeNext_mem (s : State) (th : Bool) (bs : List Byte) : (placeNext s th bs).mem = placeBytes s.mem s.pc bs := rfl
@[simp] theorem placeNext_platform (s : State) (th : Bool) (bs : List Byte) : (placeNext s th bs).platform = s.platform := rfl
@[simp] theorem placeNext_irqLine (s : State) (th : Bool) (bs : List Byte) : (placeNext s th bs).irqLine = (s.irqLine && s.cpsr.i) := rfl
@[simp] theorem placeNext_breakFlag (s : State) (th : Bool) (bs : List Byte) : (placeNext s th bs).breakFlag = false := rfl
@[simp] theorem placeNext_cycleBudget (s : State) (th : Bool) (bs : List Byte) : (placeNext s th bs).cycleBudget = max s.cycleBudget 1 := rfl
@[simp] theorem placeNext_accessTable (s : State) (th : Bool) (bs : List Byte) : (placeNext s th bs).accessTable = s.accessTable := rfl
@[simp] theorem placeNext_costRule (s : State) (th : Bool) (bs : List Byte) : (placeNext s th bs).costRule = s.costRule := rfl
@[simp] theorem placeNext_bus (s : State) (th : Bool) (bs : List Byte) : (placeNext s th bs).bus = s.bus := rfl
@[simp] theorem placeNext_draws (s : State) (th : Bool) (bs : List Byte) : (placeNext s th bs).draws = s.draws := rfl

/-! ## `setRegs` -/

@[simp] theorem setRegs_cpsr (s : State) (l : List (Reg × Word)) : (setRegs s l).cpsr = s.cpsr := by
  induction l generalizing s with
  | nil => rfl
  | cons x rest ih => simp only [setRegs]; rw [ih]; split <;> simp
@[simp] theorem setRegs_spsrFiq (s : State) (l : List (Reg × Word)) : (setRegs s l).spsrFiq = s.spsrFiq := by
  induction l generalizing s with
  | nil => rfl
  | cons x rest ih => simp only [setRegs]; rw [ih]; split <;> simp
@[simp] theorem setRegs_spsrSvc (s : State) (l : List (Reg × Word)) : (setRegs s l).spsrSvc = s.spsrSvc := by
  induction l generalizing s with
  | nil => rfl
  | cons x rest ih => simp only [setRegs]; rw [ih]; split <;> simp
@[simp] theorem setRegs_spsrAbt (s : State) (l : List (Reg × Word)) : (setRegs s l).spsrAbt = s.spsrAbt := by
  induction l generalizing s with
  | nil => rfl
  | cons x rest ih => simp only [setRegs]; rw [ih]; split <;> simp
@[simp] theorem setRegs_spsrIrq (s : State) (l : List (Reg × Word)) : (setRegs s l).spsrIrq = s.spsrIrq := by
  induction l generalizing s with
  | nil => rfl
  | cons x rest ih => simp only [setRegs]; rw [ih]; split <;> simp
@[simp] theorem setRegs_spsrUnd (s : State) (l : List (Reg × Word)) : (setRegs s l).spsrUnd = s.spsrUnd := by
  induction l generalizing s with
  | nil => rfl
  | cons x rest ih => simp only [setRegs]; rw [ih]; split <;> simp
@[simp] theorem setRegs_lastFetch (s : State) (l : List (Reg × Word)) : (setRegs s l).lastFetch = s.lastFetch := by
  induction l generalizing s with
  | nil => rfl
  | cons x rest ih => simp only [setRegs]; rw [ih]; split <;> simp
@[simp] theorem setRegs_userBankHazard (s : State) (l : List (Reg × Word)) : (setRegs s l).userBankHazard = s.userBankHazard := by
  induction l generalizing s with
  | nil => rfl
  | cons x rest ih => simp only [setRegs]; rw [ih]; split <;> simp
@[simp] theorem setRegs_mem (s : State) (l : List (Reg × Word)) : (setRegs s l).mem = s.mem := by
  induction l generalizing s with
  | nil => rfl
  | cons x rest ih => simp only [setRegs]; rw [ih]; split <;> simp
@[simp] theorem setRegs_devices (s : State) (l : List (Reg × Word)) : (setRegs s l).devices = s.devices := by
  induction l generalizing s with
  | nil => rfl
  | cons x rest ih => simp only [setRegs]; rw [ih]; split <;> simp
@[simp] theorem setRegs_platform (s : State) (l : List (Reg × Word)) : (setRegs s l).platform = s.platform := by
  induction l generalizing s with
  | nil => rfl
  | cons x rest ih => simp only [setRegs]; rw [ih]; split <;> simp
@[simp] theorem setRegs_irqLine (s : State) (l : List (Reg × Word)) : (setRegs s l).irqLine = s.irqLine := by
  induction l generalizing s with
  | nil => rfl
  | cons x rest ih => simp only [setRegs]; rw [ih]; split <;> simp
@[simp] theorem setRegs_breakFlag (s : State) (l : List (Reg × Word)) : (setRegs s l).breakFlag = s.breakFlag := by
  induction l generalizing s with
  | nil => rfl
  | cons x rest ih => simp only [setRegs]; rw [ih]; split <;> simp
@[simp] theorem setRegs_breakpoints (s : State) (l : List (Reg × Word)) : (setRegs s l).breakpoints = s.breakpoints := by
  induction l generalizing s with
  | nil => rfl
  | cons x rest ih => simp only [setRegs]; rw [ih]; split <;> simp
@[simp] theorem setRegs_cycleBudget (s : State) (l : List (Reg × Word)) : (setRegs s l).cycleBudget = s.cycleBudget := by
  induction l generalizing s with
  | nil => rfl
  | cons x rest ih => simp only [setRegs]; rw [ih]; split <;> simp
@[simp] theorem setRegs_accessTable (s : State) (l : List (Reg × Word)) : (setRegs s l).accessTable = s.accessTable := by
  induction l generalizing s with
  | nil => rfl
  | cons x rest ih => simp only [setRegs]; rw [ih]; split <;> simp
@[simp] theorem setRegs_costRule (s : State) (l : List (Reg × Word)) : (setRegs s l).costRule = s.costRule := by
  induction l generalizing s with
  | nil => rfl
  | cons x rest ih => simp only [setRegs]; rw [ih]; split <;> simp
@[simp] theorem setRegs_bus (s : State) (l : List (Reg × Word)) : (setRegs s l).bus = s.bus := by
  induction l generalizing s with
  | nil => rfl
  | cons x rest ih => simp only [setRegs]; rw [ih]; split <;> simp
@[simp] theorem setRegs_draws (s : State) (l : List (Reg × Word)) : (setRegs s l).draws = s.draws := by
  induction l generalizing s with
  | nil => rfl
  | cons x rest ih => simp only [setRegs]; rw [ih]; split <;> simp

/-! ## `setUsrRegs` -/

@[simp] theorem setUsrRegs_cpsr (s : State) (l : List (Reg × Word)) : (setUsrRegs s l).cpsr = s.cpsr := by
  induction l generalizing s with
  | nil => rfl
  | cons x rest ih => simp [setUsrRegs, ih]
@[simp] theorem setUsrRegs_spsrFiq (s : State) (l : List (Reg × Word)) : (setUsrRegs s l).spsrFiq = s.spsrFiq := by
  induction l generalizing s with
  | nil => rfl
  | cons x rest ih => simp [setUsrRegs, ih]
@[simp] theorem setUsrRegs_spsrSvc (s : State) (l : List (Reg × Word)) : (setUsrRegs s l).spsrSvc = s.spsrSvc := by
  induction l generalizing s with
  | nil => rfl
  | cons x rest ih => simp [setUsrRegs, ih]
@[simp] theorem setUsrRegs_spsrAbt (s : State) (l : List (Reg × Word)) : (setUsrRegs s l).spsrAbt = s.spsrAbt := by
  induction l generalizing s with
  | nil => rfl
  | cons x rest ih => simp [setUsrRegs, ih]
@[simp] theorem setUsrRegs_spsrIrq (s : State) (l : List (Reg × Word)) : (setUsrRegs s l).spsrIrq = s.spsrIrq := by
  induction l generalizing s with
  | nil => rfl
  | cons x rest ih => simp [setUsrRegs, ih]
@[simp] theorem setUsrRegs_spsrUnd (s : State) (l : List (Reg × Word)) : (setUsrRegs s l).spsrUnd = s.spsrUnd := by
  induction l generalizing s with
  | nil => rfl
  | cons x rest ih => simp [setUsrRegs, ih]
@[simp] theorem setUsrRegs_lastFetch (s : State) (l : List (Reg × Word)) : (setUsrRegs s l).lastFetch = s.lastFetch := by
  induction l generalizing s with
  | nil => rfl
  | cons x rest ih => simp [setUsrRegs, ih]
@[simp] theorem setUsrRegs_userBankHazard (s : State) (l : List (Reg × Word)) : (setUsrRegs s l).userBankHazard = s.userBankHazard := by
  induction l generalizing s with
  | nil => rfl
  | cons x rest ih => simp [setUsrRegs, ih]
@[simp] theorem setUsrRegs_mem (s : State) (l : List (Reg × Word)) : (setUsrRegs s l).mem = s.mem := by
  induction l generalizing s with
  | nil => rfl
  | cons x rest ih => simp [setUsrRegs, ih]
@[simp] theorem setUsrRegs_devices (s : State) (l : List (Reg × Word)) : (setUsrRegs s l).devices = s.devices := by
  induction l generalizing s with
  | nil => rfl
  | cons x rest ih => simp [setUsrRegs, ih]
@[simp] theorem setUsrRegs_platform (s : State) (l : List (Reg × Word)) : (setUsrRegs s l).platform = s.platform := by
  induction l generalizing s with
  | nil => rfl
  | cons x rest ih => simp [setUsrRegs, ih]
@[simp] theorem setUsrRegs_irqLine (s : State) (l : List (Reg × Word)) : (setUsrRegs s l).irqLine = s.irqLine := by
  induction l generalizing s with
  | nil => rfl
  | cons x rest ih => simp [setUsrRegs, ih]
@[simp] theorem setUsrRegs_breakFlag (s : State) (l : List (Reg × Word)) : (setUsrRegs s l).breakFlag = s.breakFlag := by
  induction l generalizing s with
  | nil => rfl
  | cons x rest ih => simp [setUsrRegs, ih]
@[simp] theorem setUsrRegs_breakpoints (s : State) (l : List (Reg × Word)) : (setUsrRegs s l).breakpoints = s.breakpoints := by
  induction l generalizing s with
  | nil => rfl
  | cons x rest ih => simp [setUsrRegs, ih]
@[simp] theorem setUsrRegs_cycleBudget (s : State) (l : List (Reg × Word)) : (setUsrRegs s l).cycleBudget = s.cycleBudget := by
  induction l generalizing s with
  | nil => rfl
  | cons x rest ih => simp [setUsrRegs, ih]
@[simp] theorem setUsrRegs_accessTable (s : State) (l : List (Reg × Word)) : (setUsrRegs s l).accessTable = s.accessTable := by
  induction l generalizing s with
  | nil => rfl
  | cons x rest ih => simp [setUsrRegs, ih]
@[simp] theorem setUsrRegs_costRule (s : State) (l : List (Reg × Word)) : (setUsrRegs s l).costRule = s.costRule := by
  induction l generalizing s with
  | nil => rfl
  | cons x rest ih => simp [setUsrRegs, ih]
@[simp] theorem setUsrRegs_bus (s : State) (l : List (Reg × Word)) : (setUsrRegs s l).bus = s.bus := by
  induction l generalizing s with
  | nil => rfl
  | cons x rest ih => simp [setUsrRegs, ih]
@[simp] theorem setUsrRegs_draws (s : State) (l : List (Reg × Word)) : (setUsrRegs s l).draws = s.draws := by
  induction l generalizing s with
  | nil => rfl
  | cons x rest ih => simp [setUsrRegs, ih]

/-! ## `noteBlockLoads` -/

@[simp] theorem noteBlockLoads_usr (s : State) (q : Bool) (a : Word) (rs : List Reg) :
    (noteBlockLoads s q a rs).usr = s.usr := by
  induction rs generalizing s q a with
  | nil => rfl
  | cons r rest ih => simp [noteBlockLoads, ih]
@[simp] theorem noteBlockLoads_fiq (s : State) (q : Bool) (a : Word) (rs : List Reg) :
    (noteBlockLoads s q a rs).fiq = s.fiq := by
  induction rs generalizing s q a with
  | nil => rfl
  | cons r rest ih => simp [noteBlockLoads, ih]
@[simp] theorem noteBlockLoads_svc (s : State) (q : Bool) (a : Word) (rs : List Reg) :
    (noteBlockLoads s q a rs).svc = s.svc := by
  induction rs generalizing s q a with
  | nil => rfl
  | cons r rest ih => simp [noteBlockLoads, ih]
@[simp] theorem noteBlockLoads_abt (s : State) (q : Bool) (a : Word) (rs : List Reg) :
    (noteBlockLoads s q a rs).abt = s.abt := by
  induction rs generalizing s q a with
  | nil => rfl
  | cons r rest ih => simp [noteBlockLoads, ih]
@[simp] theorem noteBlockLoads_irq (s : State) (q : Bool) (a : Word) (rs : List Reg) :
    (noteBlockLoads s q a rs).irq = s.irq := by
  induction rs generalizing s q a with
  | nil => rfl
  | cons r rest ih => simp [noteBlockLoads, ih]
@[simp] theorem noteBlockLoads_und (s : State) (q : Bool) (a : Word) (rs : List Reg) :
    (noteBlockLoads s q a rs).und = s.und := by
  induction rs generalizing s q a with
  | nil => rfl
  | cons r rest ih => simp [noteBlockLoads, ih]
@[simp] theorem noteBlockLoads_pc (s : State) (q : Bool) (a : Word) (rs : List Reg) :
    (noteBlockLoads s q a rs).pc = s.pc := by
  induction rs generalizing s q a with
  | nil => rfl
  | cons r rest ih => simp [noteBlockLoads, ih]
@[simp] theorem noteBlockLoads_cpsr (s : State) (q : Bool) (a : Word) (rs : List Reg) :
    (noteBlockLoads s q a rs).cpsr = s.cpsr := by
  induction rs generalizing s q a with
  | nil => rfl
  | cons r rest ih => simp [noteBlockLoads, ih]
@[simp] theorem noteBlockLoads_spsrFiq (s : State) (q : Bool) (a : Word) (rs : List Reg) :
    (noteBlockLoads s q a rs).spsrFiq = s.spsrFiq := by
  induction rs generalizing s q a with
  | nil => rfl
  | cons r rest ih => simp [noteBlockLoads, ih]
@[simp] theorem noteBlockLoads_spsrSvc (s : State) (q : Bool) (a : Word) (rs : List Reg) :
    (noteBlockLoads s q a rs).spsrSvc = s.spsrSvc := by
  induction rs generalizing s q a with
  | nil => rfl
  | cons r rest ih => simp [noteBlockLoads, ih]
@[simp] theorem noteBlockLoads_spsrAbt (s : State) (q : Bool) (a : Word) (rs : List Reg) :
    (noteBlockLoads s q a rs).spsrAbt = s.spsrAbt := by
  induction rs generalizing s q a with
  | nil => rfl
  | cons r rest ih => simp [noteBlockLoads, ih]
@[simp] theorem noteBlockLoads_spsrIrq (s : State) (q : Bool) (a : Word) (rs : List Reg) :
    (noteBlockLoads s q a rs).spsrIrq = s.spsrIrq := by
  induction rs generalizing s q a with
  | nil => rfl
  | cons r rest ih => simp [noteBlockLoads, ih]
@[simp] theorem noteBlockLoads_spsrUnd (s : State) (q : Bool) (a : Word) (rs : List Reg) :
    (noteBlockLoads s q a rs).spsrUnd = s.spsrUnd := by
  induction rs generalizing s q a with
  | nil => rfl
  | cons r rest ih => simp [noteBlockLoads, ih]
@[simp] theorem noteBlockLoads_lastFetch (s : State) (q : Bool) (a : Word) (rs : List Reg) :
    (noteBlockLoads s q a rs).lastFetch = s.lastFetch := by
  induction rs generalizing s q a with
  | nil => rfl
  | cons r rest ih => simp [noteBlockLoads, ih]
@[simp] theorem noteBlockLoads_userBankHazard (s : State) (q : Bool) (a : Word) (rs : List Reg) :
    (noteBlockLoads s q a rs).userBankHazard = s.userBankHazard := by
  induction rs generalizing s q a with
  | nil => rfl
  | cons r rest ih => simp [noteBlockLoads, ih]
@[simp] theorem noteBlockLoads_mem (s : State) (q : Bool) (a : Word) (rs : List Reg) :
    (noteBlockLoads s q a rs).mem = s.mem := by
  induction rs generalizing s q a with
  | nil => rfl
  | cons r rest ih => simp [noteBlockLoads, ih]
@[simp] theorem noteBlockLoads_devices (s : State) (q : Bool) (a : Word) (rs : List Reg) :
    (noteBlockLoads s q a rs).devices = s.devices := by
  induction rs generalizing s q a with
  | nil => rfl
  | cons r rest ih => simp [noteBlockLoads, ih]
@[simp] theorem noteBlockLoads_irqLine (s : State) (q : Bool) (a : Word) (rs : List Reg) :
    (noteBlockLoads s q a rs).irqLine = s.irqLine := by
  induction rs generalizing s q a with
  | nil => rfl
  | cons r rest ih => simp [noteBlockLoads, ih]
@[simp] theorem noteBlockLoads_breakFlag (s : State) (q : Bool) (a : Word) (rs : List Reg) :
    (noteBlockLoads s q a rs).breakFlag = s.breakFlag := by
  induction rs generalizing s q a with
  | nil => rfl
  | cons r rest ih => simp [noteBlockLoads, ih]
@[simp] theorem noteBlockLoads_breakpoints (s : State) (q : Bool) (a : Word) (rs : List Reg) :
    (noteBlockLoads s q a rs).breakpoints = s.breakpoints := by
  induction rs generalizing s q a with
  | nil => rfl
  | cons r rest ih => simp [noteBlockLoads, ih]
@[simp] theorem noteBlockLoads_accessTable (s : State) (q : Bool) (a : Word) (rs : List Reg) :
    (noteBlockLoads s q a rs).accessTable = s.accessTable := by
  induction rs generalizing s q a with
  | nil => rfl
  | cons r rest ih => simp [noteBlockLoads, ih]
@[simp] theorem noteBlockLoads_costRule (s : State) (q : Bool) (a : Word) (rs : List Reg) :
    (noteBlockLoads s q a rs).costRule = s.costRule := by
  induction rs generalizing s q a with
  | nil => rfl
  | cons r rest ih => simp [noteBlockLoads, ih]
@[simp] theorem noteBlockLoads_draws (s : State) (q : Bool) (a : Word) (rs : List Reg) :
    (noteBlockLoads s q a rs).draws = s.draws := by
  induction rs generalizing s q a with
  | nil => rfl
  | cons r rest ih => simp [noteBlockLoads, ih]

end Sys2Proof.Machine
end

