-- ==== Sys2Proof/Laws/Memory.lean ====
section
/-! SUPPORT. Memory: a read after a write, what a write leaves alone, and that every operation over memory
keeps the canonical form. -/

namespace Sys2Proof.Machine

open Sys2Proof

/-! ## One byte -/

theorem Memory.read_filter (m : Memory) (k j : Nat) :
    Memory.read (m.filter (fun c => c.1 != k)) j = if j = k then Memory.unlisted else Memory.read m j := by
  induction m with
  | nil => simp [Memory.read]
  | cons x rest ih =>
    obtain ⟨a, b⟩ := x
    by_cases hk : a = k
    · subst hk
      simp only [List.filter, bne_self_eq_false, ih, Memory.read]
      by_cases hj : j = a <;> simp [hj, eq_comm]
    · have hb : (a != k) = true := by simpa using hk
      simp only [List.filter, hb, Memory.read, ih]
      by_cases ha : a = j
      · have : ¬ j = k := fun e => hk (ha.trans e)
        simp [ha, this]
      · simp [ha]

/-- Adding an entry at an address that has none. -/
theorem Memory.read_insert (m : Memory) (k j : Nat) (v : Byte) (h : ∀ c ∈ m, c.1 ≠ k) :
    Memory.read (Memory.insert m k v) j = if j = k then v else Memory.read m j := by
  induction m with
  | nil => simp [Memory.insert, Memory.read, eq_comm]
  | cons x rest ih =>
    obtain ⟨a, b⟩ := x
    have ha : a ≠ k := h (a, b) (by simp)
    have ih := ih (fun c hc => h c (by simp [hc]))
    simp only [Memory.insert]
    split
    · by_cases hj : j = k
      · simp [Memory.read, hj]
      · simp [Memory.read, hj, Ne.symm (show j ≠ k from hj)]
    · simp only [Memory.read, ih]
      by_cases haj : a = j
      · have : ¬ j = k := fun e => ha (haj.trans e)
        simp [haj, this]
      · simp [haj]

/-- A read after a write: the value written at that address, what was there before at any other. -/
theorem Memory.read_write (m : Memory) (k j : Nat) (v : Byte) :
    Memory.read (Memory.write m k v) j = if j = k then v else Memory.read m j := by
  unfold Memory.write
  split
  · next hv => rw [Memory.read_filter, hv]
  · rw [Memory.read_insert _ _ _ _ (by simp), Memory.read_filter]
    by_cases hj : j = k <;> simp [hj]

theorem byteAt_setByteAt (m : Memory) (a b : Word) (v : Byte) :
    byteAt (setByteAt m a v) b = if b = a then v else byteAt m b := by
  simp only [byteAt, setByteAt, Memory.read_write, ← BitVec.toNat_inj]

@[simp] theorem byteAt_setByteAt_same (m : Memory) (a : Word) (v : Byte) : byteAt (setByteAt m a v) a = v := by
  simp [byteAt_setByteAt]

/-! ## The canonical form -/

theorem Memory.mem_insert (m : Memory) (k : Nat) (v : Byte) (c : Host.Cell) :
    c ∈ Memory.insert m k v ↔ c = (k, v) ∨ c ∈ m := by
  induction m with
  | nil => simp [Memory.insert]
  | cons x rest ih =>
    obtain ⟨a, b⟩ := x
    simp only [Memory.insert]
    split
    · simp
    · simp only [List.mem_cons, ih]
      tauto

theorem Memory.insert_sorted (m : Memory) (k : Nat) (v : Byte) (hs : m.Pairwise (fun a b => a.1 < b.1))
    (h : ∀ c ∈ m, c.1 ≠ k) : (Memory.insert m k v).Pairwise (fun a b => a.1 < b.1) := by
  induction m with
  | nil => simp [Memory.insert]
  | cons x rest ih =>
    obtain ⟨a, b⟩ := x
    rw [List.pairwise_cons] at hs
    have ha : a ≠ k := h (a, b) (by simp)
    simp only [Memory.insert]
    split
    · next hlt =>
      rw [List.pairwise_cons]
      refine ⟨fun c hc => ?_, List.pairwise_cons.2 hs⟩
      rcases List.mem_cons.1 hc with e | hc
      · rw [e]; exact hlt
      · exact Nat.lt_trans hlt (hs.1 c hc)
    · next hge =>
      rw [List.pairwise_cons]
      refine ⟨fun c hc => ?_, ih hs.2 (fun c hc => h c (by simp [hc]))⟩
      rcases (Memory.mem_insert rest k v c).1 hc with e | hc
      · rw [e]; show a < k; omega
      · exact hs.1 c hc

/-- A write keeps the canonical form. -/
theorem Memory.write_wf (m : Memory) (k : Nat) (v : Byte) (hm : Memory.WF m) (hk : k < 2 ^ 32) :
    Memory.WF (Memory.write m k v) := by
  obtain ⟨hs, hc⟩ := hm
  have hf : (m.filter (fun c => c.1 != k)).Pairwise (fun a b => a.1 < b.1) := hs.sublist List.filter_sublist
  unfold Memory.write
  split
  · exact ⟨hf, fun c h => hc c (List.mem_of_mem_filter h)⟩
  · next hv =>
    refine ⟨Memory.insert_sorted _ _ _ hf (by simp), fun c h => ?_⟩
    rcases (Memory.mem_insert _ _ _ _).1 h with e | h
    · rw [e]; exact ⟨hv, hk⟩
    · exact hc c (List.mem_of_mem_filter h)

theorem setByteAt_wf (m : Memory) (a : Word) (v : Byte) (hm : Memory.WF m) : Memory.WF (setByteAt m a v) :=
  Memory.write_wf m a.toNat v hm a.isLt

theorem memWrite_wf (m : Memory) (w : Width) (a v : Word) (hm : Memory.WF m) : Memory.WF (memWrite m w a v) := by
  cases w <;> simp only [memWrite] <;> repeat' first | exact hm | apply setByteAt_wf

theorem placeBytes_wf (m : Memory) (a : Word) (bs : List Byte) (hm : Memory.WF m) :
    Memory.WF (placeBytes m a bs) := by
  induction bs generalizing m a with
  | nil => exact hm
  | cons b rest ih => exact ih _ _ (setByteAt_wf m a b hm)

/-- Memory after reset is in canonical form. -/
theorem reset_mem_wf : Memory.WF State.reset.mem := by decide

/-- In canonical form, an entry is what its address reads as. -/
theorem Memory.read_of_mem (m : Memory) (c : Host.Cell) (hm : Memory.WF m) (h : c ∈ m) :
    Memory.read m c.1 = c.2 := by
  obtain ⟨hs, -⟩ := hm
  induction m with
  | nil => cases h
  | cons x rest ih =>
    obtain ⟨a, b⟩ := x
    rw [List.pairwise_cons] at hs
    rcases List.mem_cons.1 h with e | h
    · subst e; simp [Memory.read]
    · have : a < c.1 := hs.1 c h
      simp only [Memory.read, if_neg (Nat.ne_of_lt this)]
      exact ih h hs.2

/-! ## Wider accesses -/

/-- The addresses of an access: the bytes `a`, ..., `a + n - 1`. -/
theorem byteAt_memWrite_of_outside (m : Memory) (w : Width) (a v b : Word)
    (h : ∀ k < w.bytes, b ≠ a + BitVec.ofNat 32 k) : byteAt (memWrite m w a v) b = byteAt m b := by
  cases w
  · have h0 := h 0 (by decide)
    simp only [BitVec.add_zero] at h0
    simp [memWrite, byteAt_setByteAt, h0]
  · have h0 := h 0 (by decide)
    have h1 := h 1 (by decide)
    simp only [BitVec.add_zero] at h0 h1
    simp [memWrite, byteAt_setByteAt, h0, h1]
  · have h0 := h 0 (by decide)
    have h1 := h 1 (by decide)
    have h2 := h 2 (by decide)
    have h3 := h 3 (by decide)
    simp only [BitVec.add_zero] at h0 h1 h2 h3
    simp [memWrite, byteAt_setByteAt, h0, h1, h2, h3]

theorem word_offsets_ne (a : Word) :
    a ≠ a + 1 ∧ a ≠ a + 2 ∧ a ≠ a + 3 ∧ a + 1 ≠ a + 2 ∧ a + 1 ≠ a + 3 ∧ a + 2 ≠ a + 3 := by
  refine ⟨?_, ?_, ?_, ?_, ?_, ?_⟩ <;> bv_omega

theorem joined_bytes (v : Word) :
    v.extractLsb' 24 8 ++ v.extractLsb' 16 8 ++ v.extractLsb' 8 8 ++ v.extractLsb' 0 8 = v := by
  ext i hi
  simp only [BitVec.getElem_append, BitVec.getElem_extractLsb']
  rw [← BitVec.getLsbD_eq_getElem]
  split
  · simp
  · split
    · simp [show 8 + (i - 8) = i by omega]
    · split
      · simp [show 16 + (i - 8 - 8) = i by omega]
      · simp [show 24 + (i - 8 - 8 - 8) = i by omega]

/-- A word read back is the word written. -/
theorem memRead_memWrite_word (m : Memory) (a v : Word) : memRead (memWrite m .word a v) .word a = v := by
  obtain ⟨h1, h2, h3, h4, h5, h6⟩ := word_offsets_ne a
  simp only [memRead, memWrite, byteAt_setByteAt, ↓reduceIte, h1, h2, h3, h4, h5, h6]
  exact joined_bytes v

/-- A byte read back is the low byte written. -/
theorem memRead_memWrite_byte (m : Memory) (a v : Word) :
    memRead (memWrite m .byte a v) .byte a = (v.extractLsb' 0 8).setWidth 32 := by
  simp [memRead, memWrite]

/-- A halfword read back is the low halfword written. -/
theorem memRead_memWrite_half (m : Memory) (a v : Word) :
    memRead (memWrite m .half a v) .half a = (v.extractLsb' 0 16).setWidth 32 := by
  simp only [memRead, memWrite, byteAt_setByteAt, ↓reduceIte, (word_offsets_ne a).1]
  congr 1
  ext i hi
  simp only [BitVec.getElem_append, BitVec.getElem_extractLsb']
  split
  · simp
  · simp [show 8 + (i - 8) = i by omega]

/-! ## Alignment -/

theorem alignWord_idem (a : Word) : alignWord (alignWord a) = alignWord a := by
  simp [alignWord, BitVec.and_assoc]

theorem alignHalf_idem (a : Word) : alignHalf (alignHalf a) = alignHalf a := by
  simp [alignHalf, BitVec.and_assoc]

/-- Aligning to a word clears the remainder modulo 4. -/
theorem alignWord_toNat (a : Word) : (alignWord a).toNat = a.toNat / 4 * 4 := by
  have h : alignWord a = (a >>> 2) <<< 2 := by
    apply BitVec.eq_of_getLsbD_eq
    intro i hi
    simp only [alignWord, BitVec.getLsbD_and, BitVec.getLsbD_shiftLeft, BitVec.getLsbD_ushiftRight]
    interval_cases i <;> simp
  rw [h]
  simp only [BitVec.toNat_shiftLeft, BitVec.toNat_ushiftRight, Nat.shiftLeft_eq, Nat.shiftRight_eq_div_pow]
  have := a.isLt
  omega

/-- Aligning commutes with adding whole words. -/
theorem alignWord_add (a : Word) (n : Nat) :
    alignWord (a + BitVec.ofNat 32 (4 * n)) = alignWord a + BitVec.ofNat 32 (4 * n) := by
  apply BitVec.eq_of_toNat_eq
  have := a.isLt
  simp only [alignWord_toNat, BitVec.toNat_add, BitVec.toNat_ofNat]
  omega

theorem fetchAddress_idem (t : Bool) (a : Word) : fetchAddress t (fetchAddress t a) = fetchAddress t a := by
  cases t
  · exact alignWord_idem a
  · exact alignHalf_idem a

end Sys2Proof.Machine
end

