-- ==== Sys2Proof/Laws/Registers.lean ====
section
/-! SUPPORT. Reading a register after writing one: banks, physical registers, visible registers, SPSRs. -/

namespace Sys2Proof.Machine

open Sys2Proof

/-! ## Banks -/

/-- Only R15 is the shared program counter. -/
theorem bank_eq_pc_iff (m : Mode) (r : Reg) : bank m r = .pc ↔ r = 15 := by
  cases m <;> revert r <;> decide

/-- In one mode two numbers name two registers. -/
theorem bank_injective (m : Mode) (a b : Reg) : bank m a = bank m b ↔ a = b := by
  cases m <;> revert a b <;> decide

/-- R0..R7 are the same in every mode. -/
theorem bank_lowReg (m : Mode) (r : LowReg) : bank m (lowReg r) = bank .user (lowReg r) := by
  cases m <;> revert r <;> decide

@[simp] theorem lowReg_ne_pc (r : LowReg) : lowReg r ≠ 15 := by revert r; decide

/-- R14 of a mode is the register exception entry writes. -/
theorem bank_link (m : Mode) : bank m 14 = bankHigh m 1 := by cases m <;> rfl

/-! ## Physical registers -/

theorem vector_get_set {n : Nat} (v : Vector Word n) (i j : Fin n) (x : Word) :
    (v.set i.val x i.isLt).get j = if j = i then x else v.get j := by
  simp only [Vector.get_eq_getElem, Vector.getElem_set, Fin.ext_iff, eq_comm]

@[simp] theorem readPhys_writePhys_same (s : State) (p : PhysReg) (v : Word) :
    readPhys (writePhys s p v) p = v := by
  cases p <;> simp [readPhys, writePhys, vector_get_set]

theorem readPhys_writePhys_ne (s : State) (p q : PhysReg) (v : Word) (h : q ≠ p) :
    readPhys (writePhys s p v) q = readPhys s q := by
  cases p <;> cases q <;> first
    | rfl
    | exact absurd rfl h
    | (simp only [readPhys, writePhys, vector_get_set]
       rw [if_neg (fun e => h (by rw [e]))])

theorem readPhys_writePhys (s : State) (p q : PhysReg) (v : Word) :
    readPhys (writePhys s p v) q = if q = p then v else readPhys s q := by
  split
  · next h => rw [h, readPhys_writePhys_same]
  · next h => exact readPhys_writePhys_ne s p q v h

/-- A physical register read depends on the register fields alone. -/
theorem readPhys_congr {s t : State} (p : PhysReg) (h : s.usr = t.usr ∧ s.fiq = t.fiq ∧ s.svc = t.svc ∧
    s.abt = t.abt ∧ s.irq = t.irq ∧ s.und = t.und) (hp : p = .pc → s.pc = t.pc) : readPhys s p = readPhys t p := by
  obtain ⟨h1, h2, h3, h4, h5, h6⟩ := h
  cases p <;> simp_all [readPhys]

@[simp] theorem readPhys_charge (s : State) (n : Nat) (p : PhysReg) :
    readPhys (charge s n) p = readPhys s p := by cases p <;> rfl

@[simp] theorem readPhys_noteAccess (s : State) (x : BusAccess) (p : PhysReg) :
    readPhys (noteAccess s x) p = readPhys s p := by cases p <;> rfl

@[simp] theorem readPhys_noteLoad (s : State) (q : Bool) (k : LoadKind) (a : Word) (p : PhysReg) :
    readPhys (noteLoad s q k a) p = readPhys s p := by cases p <;> rfl

@[simp] theorem readPhys_noteBlockLoads (s : State) (q : Bool) (a : Word) (rs : List Reg) (p : PhysReg) :
    readPhys (noteBlockLoads s q a rs) p = readPhys s p := by
  apply readPhys_congr <;> simp

@[simp] theorem readPhys_drew (s : State) (p : PhysReg) : readPhys (drew s) p = readPhys s p := by
  cases p <;> rfl

@[simp] theorem readPhys_refill (s : State) (p : PhysReg) : readPhys (refill s) p = readPhys s p := by
  cases p <;> rfl

@[simp] theorem readPhys_setSpsr (s : State) (n : SpsrName) (v : Word) (p : PhysReg) :
    readPhys (setSpsr s n v) p = readPhys s p := by cases n <;> cases p <;> rfl

@[simp] theorem readPhys_setMem (s : State) (m : Memory) (p : PhysReg) :
    readPhys { s with mem := m } p = readPhys s p := by cases p <;> rfl

@[simp] theorem readPhys_setCpsr (s : State) (c : Psr) (p : PhysReg) :
    readPhys { s with cpsr := c } p = readPhys s p := by cases p <;> rfl

theorem readPhys_advance (s : State) (p : PhysReg) (h : p ≠ .pc) : readPhys (advance s) p = readPhys s p := by
  cases p <;> first | rfl | exact absurd rfl h

theorem readPhys_writePc (s : State) (v : Word) (p : PhysReg) (h : p ≠ .pc) :
    readPhys (writePc s v) p = readPhys s p := by
  cases p <;> first | rfl | exact absurd rfl h

theorem readPhys_fetched (s : State) (p : PhysReg) : readPhys (fetched s) p = readPhys s p := by
  cases p <;> rfl

theorem readPhys_debit (s t : State) (p : PhysReg) : readPhys (debit s t) p = readPhys t p := by
  cases p <;> simp [readPhys]

/-! ## Visible registers -/

theorem readReg_setReg (s : State) (r q : Reg) (v : Word) :
    readReg (setReg s r v) q = if q = r then v else readReg s q := by
  simp [readReg, setReg, readPhys_writePhys, bank_injective]

@[simp] theorem readReg_setReg_same (s : State) (r : Reg) (v : Word) : readReg (setReg s r v) r = v := by
  simp [readReg_setReg]

theorem readReg_setReg_ne (s : State) (r q : Reg) (v : Word) (h : q ≠ r) :
    readReg (setReg s r v) q = readReg s q := by
  simp [readReg_setReg, h]

@[simp] theorem readReg_charge (s : State) (n : Nat) (r : Reg) : readReg (charge s n) r = readReg s r := by
  simp [readReg]

@[simp] theorem readReg_noteAccess (s : State) (x : BusAccess) (r : Reg) :
    readReg (noteAccess s x) r = readReg s r := by simp [readReg]

@[simp] theorem readReg_noteLoad (s : State) (q : Bool) (k : LoadKind) (a : Word) (r : Reg) :
    readReg (noteLoad s q k a) r = readReg s r := by simp [readReg]

@[simp] theorem readReg_noteBlockLoads (s : State) (q : Bool) (a : Word) (rs : List Reg) (r : Reg) :
    readReg (noteBlockLoads s q a rs) r = readReg s r := by simp [readReg]

@[simp] theorem readReg_drew (s : State) (r : Reg) : readReg (drew s) r = readReg s r := by simp [readReg]

@[simp] theorem readReg_refill (s : State) (r : Reg) : readReg (refill s) r = readReg s r := by simp [readReg]

@[simp] theorem readReg_setSpsr (s : State) (n : SpsrName) (v : Word) (r : Reg) :
    readReg (setSpsr s n v) r = readReg s r := by simp [readReg]

theorem readReg_advance (s : State) (r : Reg) (h : r ≠ 15) : readReg (advance s) r = readReg s r := by
  simp only [readReg, advance_cpsr]
  exact readPhys_advance s _ (by simpa [bank_eq_pc_iff] using h)

theorem readReg_writePc (s : State) (v : Word) (r : Reg) (h : r ≠ 15) :
    readReg (writePc s v) r = readReg s r := by
  simp only [readReg, writePc_cpsr]
  exact readPhys_writePc s v _ (by simpa [bank_eq_pc_iff] using h)

@[simp] theorem operandReg_charge (s : State) (n : Nat) (r : Reg) (off : Word) :
    operandReg (charge s n) r off = operandReg s r off := by simp [operandReg, pcRead]

/-- A physical register the mode does not show as `r` keeps its value when `r` is written. -/
theorem readPhys_setReg_ne (s : State) (r : Reg) (v : Word) (p : PhysReg) (h : p ≠ bank s.cpsr.mode r) :
    readPhys (setReg s r v) p = readPhys s p := readPhys_writePhys_ne s _ p v h

/-- Writing a register other than R15 leaves the program counter. -/
theorem setReg_pc_of_ne (s : State) (r : Reg) (v : Word) (h : r ≠ 15) : (setReg s r v).pc = s.pc := by
  have hp : PhysReg.pc ≠ bank s.cpsr.mode r := fun e => h ((bank_eq_pc_iff _ _).1 e.symm)
  simpa [readPhys] using readPhys_setReg_ne s r v .pc hp

/-- Writing a User-bank register other than R15 leaves the program counter. -/
theorem setUsrReg_pc_of_ne (s : State) (r : Reg) (v : Word) (h : r ≠ 15) : (setUsrReg s r v).pc = s.pc := by
  have hp : PhysReg.pc ≠ bank .user r := fun e => h ((bank_eq_pc_iff _ _).1 e.symm)
  simpa [readPhys, setUsrReg] using readPhys_writePhys_ne s _ .pc v hp

/-- `setRegs` leaves the program counter: R15 is left to `writePc`. -/
@[simp] theorem setRegs_pc (s : State) (l : List (Reg × Word)) : (setRegs s l).pc = s.pc := by
  induction l generalizing s with
  | nil => rfl
  | cons x rest ih =>
    obtain ⟨r, v⟩ := x
    simp only [setRegs]
    rw [ih]
    split
    · rfl
    · next h => exact setReg_pc_of_ne s r v h

/-- A register that is not in the list keeps its value. -/
theorem readPhys_setRegs_of_not_mem (s : State) (l : List (Reg × Word)) (p : PhysReg)
    (h : ∀ x ∈ l, x.1 ≠ 15 → p ≠ bank s.cpsr.mode x.1) : readPhys (setRegs s l) p = readPhys s p := by
  induction l generalizing s with
  | nil => rfl
  | cons x rest ih =>
    obtain ⟨r, v⟩ := x
    simp only [setRegs]
    by_cases hr : r = 15
    · simp only [hr, ↓reduceIte]
      exact ih s (fun y hy => h y (by simp [hy]))
    · simp only [hr, ↓reduceIte]
      rw [ih (setReg s r v) (fun y hy => by simpa using h y (by simp [hy]))]
      exact readPhys_setReg_ne s r v p (by simpa using h (r, v) (by simp) hr)

/-- A physical register that no entry of the list names keeps its value. -/
theorem readPhys_setUsrRegs_of_not_mem (s : State) (l : List (Reg × Word)) (p : PhysReg)
    (h : ∀ x ∈ l, p ≠ bank .user x.1) : readPhys (setUsrRegs s l) p = readPhys s p := by
  induction l generalizing s with
  | nil => rfl
  | cons x rest ih =>
    obtain ⟨r, v⟩ := x
    simp only [setUsrRegs]
    rw [ih (setUsrReg s r v) (fun y hy => h y (by simp [hy]))]
    exact readPhys_writePhys_ne s _ p v (by simpa using h (r, v) (by simp))

/-! ## SPSRs -/

theorem readSpsr_setSpsr (s : State) (n k : SpsrName) (v : Word) :
    readSpsr (setSpsr s n v) k = if k = n then v else readSpsr s k := by
  cases n <;> cases k <;> rfl

@[simp] theorem readSpsr_charge (s : State) (n : Nat) (k : SpsrName) : readSpsr (charge s n) k = readSpsr s k := by
  cases k <;> rfl

@[simp] theorem readSpsr_drew (s : State) (k : SpsrName) : readSpsr (drew s) k = readSpsr s k := by
  cases k <;> rfl

@[simp] theorem readSpsr_writePhys (s : State) (p : PhysReg) (v : Word) (k : SpsrName) :
    readSpsr (writePhys s p v) k = readSpsr s k := by cases k <;> simp [readSpsr]

@[simp] theorem readSpsr_setReg (s : State) (r : Reg) (v : Word) (k : SpsrName) :
    readSpsr (setReg s r v) k = readSpsr s k := by cases k <;> simp [readSpsr]

@[simp] theorem readSpsr_advance (s : State) (k : SpsrName) : readSpsr (advance s) k = readSpsr s k := by
  cases k <;> rfl

@[simp] theorem readSpsr_writePc (s : State) (v : Word) (k : SpsrName) :
    readSpsr (writePc s v) k = readSpsr s k := by cases k <;> rfl

end Sys2Proof.Machine
end

