-- ==== Sys2Proof/Laws/Ops.lean ====
section
/-! SUPPORT. One lemma per shared operation that says everything it can do. -/

namespace Sys2Proof.Machine

open Sys2Proof

/-! ## Results -/

theorem andThen_eq_next {r : Result} {k : State → Result} {t : State} :
    andThen r k = .next t ↔ ∃ s, r = .next s ∧ k s = .next t := by
  cases r <;> simp [andThen]

@[simp] theorem andThen_next (s : State) (k : State → Result) : andThen (.next s) k = k s := rfl

@[simp] theorem andThen_fault (f : Fault) (k : State → Result) : andThen (.fault f) k = .fault f := rfl

theorem andThen_ne_refused {r : Result} {k : State → Result} {x : Refusal} (hr : r ≠ .refused x)
    (hk : ∀ s, k s ≠ .refused x) : andThen r k ≠ .refused x := by
  cases r with
  | next s => exact hk s
  | fault f => simp [andThen]
  | refused y => simpa [andThen] using hr

@[simp] theorem faultIf_true (c : UnpredictableCase) (k : Result) : faultIf true c k = .fault (.unpredictable c) := rfl

@[simp] theorem faultIf_false (c : UnpredictableCase) (k : Result) : faultIf false c k = k := rfl

theorem faultIf_eq_next {b : Bool} {c : UnpredictableCase} {k : Result} {t : State} :
    faultIf b c k = .next t ↔ b = false ∧ k = .next t := by
  cases b <;> simp

theorem faultIf_ne_refused {b : Bool} {c : UnpredictableCase} {k : Result} {x : Refusal} (hk : k ≠ .refused x) :
    faultIf b c k ≠ .refused x := by
  cases b <;> simp [hk]

/-! ## The condition check -/

theorem whenCond_passes {c : Cond} {s : State} (k : Result) (h : c ≠ .nv) (hc : condHolds c s.cpsr = true) :
    whenCond c s k = k := by
  simp [whenCond, hc, beq_eq_false_iff_ne.2 h]

theorem whenCond_fails {c : Cond} {s : State} (k : Result) (h : c ≠ .nv) (hc : condHolds c s.cpsr = false) :
    whenCond c s k = .next (advance s) := by
  simp [whenCond, hc, beq_eq_false_iff_ne.2 h]

@[simp] theorem whenCond_nv (s : State) (k : Result) : whenCond .nv s k = .fault (.unpredictable .nvCondition) := rfl

theorem whenCond_eq_next {c : Cond} {s : State} {k : Result} {t : State} (h : whenCond c s k = .next t) :
    (condHolds c s.cpsr = true ∧ k = .next t) ∨ (condHolds c s.cpsr = false ∧ t = advance s) := by
  rw [whenCond, faultIf_eq_next] at h
  obtain ⟨-, h⟩ := h
  split at h
  · next hc => exact .inl ⟨hc, h⟩
  · next hc => cases h; exact .inr ⟨by simpa using hc, rfl⟩

theorem whenCond_ne_refused {c : Cond} {s : State} {k : Result} {x : Refusal} (hk : k ≠ .refused x) :
    whenCond c s k ≠ .refused x := by
  refine faultIf_ne_refused ?_
  split
  · exact hk
  · simp

/-! ## The user-bank hazard -/

/-- The hazard is met exactly where it is open and a listed register is banked away from the User bank. -/
theorem bankHazard_eq_true_iff (s : State) (rs : List Reg) :
    bankHazard s rs = true ↔
      s.userBankHazard = true ∧ ∃ r ∈ rs, r ≠ 15 ∧ bank s.cpsr.mode r ≠ bank .user r := by
  simp [bankHazard, bne_iff_ne]

theorem bankHazard_eq_false_iff (s : State) (rs : List Reg) :
    bankHazard s rs = false ↔
      s.userBankHazard = false ∨ ∀ r ∈ rs, r = 15 ∨ bank s.cpsr.mode r = bank .user r := by
  cases hb : s.userBankHazard
  · simp [bankHazard, hb]
  · simp [bankHazard, hb, Decidable.or_iff_not_imp_left]

@[simp] theorem bankHazard_nil (s : State) : bankHazard s [] = false := by simp [bankHazard]

/-- No low register is banked. -/
theorem bankHazard_low (s : State) (rs : List Reg) (h : ∀ r ∈ rs, r.toNat < 8 ∨ r = 15) :
    bankHazard s rs = false := by
  rw [bankHazard_eq_false_iff]
  refine .inr fun r hr => (h r hr).elim (fun hl => .inr ?_) .inl
  unfold bank
  rw [if_pos (by omega), if_pos (by omega)]

/-! ## The memory interface -/

theorem busRead_ordinary {s : State} {a : Word} (w : Width) (h : isDevice s.devices a = false) :
    busRead s w a = memRead s.mem w a := by simp [busRead, h]

theorem busRead_device {s : State} {a : Word} (w : Width) (h : isDevice s.devices a = true) :
    busRead s w a = w.cut (Config.platformRead s.platform w a) := by simp [busRead, h]

theorem busWrite_ordinary {s : State} {a : Word} (w : Width) (v : Word) (h : isDevice s.devices a = false) :
    busWrite s w a v = memWrite s.mem w a v := by simp [busWrite, h]

theorem busWrite_device {s : State} {a : Word} (w : Width) (v : Word) (h : isDevice s.devices a = true) :
    busWrite s w a v = s.mem := by simp [busWrite, h]

/-- What the interface answers depends on memory, the device map and the platform's state alone. -/
theorem busRead_congr {s t : State} (hm : t.mem = s.mem) (hd : t.devices = s.devices) (hp : t.platform = s.platform)
    (w : Width) (a : Word) : busRead t w a = busRead s w a := by simp [busRead, hm, hd, hp]

theorem loadValue_congr {s t : State} (hm : t.mem = s.mem) (hd : t.devices = s.devices)
    (hp : t.platform = s.platform) (k : LoadKind) (a : Word) : loadValue t k a = loadValue s k a := by
  cases k <;> simp only [loadValue, busRead_congr hm hd hp]

/-- Every address of a word is answered by the same side. -/
theorem isDevice_congr (l : List AddrRange) {a b : Word} (h : alignWord a = alignWord b) :
    isDevice l a = isDevice l b := by simp [isDevice, h]

@[simp] theorem isDevice_nil (a : Word) : isDevice [] a = false := rfl

theorem platformStep_ordinary {l : List AddrRange} {x : BusAccess} (n : Nat) (h : isDevice l x.addr = false) :
    platformStep l n x = n := by simp [platformStep, h]

/-- A write through the interface keeps the canonical form of memory. -/
theorem busWrite_wf (s : State) (w : Width) (a v : Word) (h : Memory.WF s.mem) : Memory.WF (busWrite s w a v) := by
  unfold busWrite
  split
  · exact h
  · exact memWrite_wf _ _ _ _ h

/-- A byte outside the access reads as before. -/
theorem byteAt_busWrite_of_outside (s : State) (w : Width) (a v b : Word)
    (h : ∀ k, k < w.bytes → b ≠ a + BitVec.ofNat 32 k) : byteAt (busWrite s w a v) b = byteAt s.mem b := by
  unfold busWrite
  split
  · rfl
  · exact byteAt_memWrite_of_outside _ _ _ _ _ h

/-! ## The debit of a step -/

/-- Under either cost rule a step costs at least one cycle. -/
theorem debit_cycleBudget_le (s t : State) : (debit s t).cycleBudget ≤ s.cycleBudget - 1 := by
  unfold debit
  split
  · exact Int.min_le_right _ _
  · simp only; omega

/-! ## Stores -/

/-- A store faults on the two slots already fetched, and otherwise writes its bytes and is debited. -/
theorem store_cases (s : State) (q : Bool) (w : Width) (a v : Word) :
    (storeHitsPipeline s w (alignTo w a) = true ∧ store s q w a v = .fault (.pipelineHazard s.pc))
    ∨ (storeHitsPipeline s w (alignTo w a) = false ∧ ∃ x : BusAccess,
        store s q w a v = .next (noteAccess { s with mem := busWrite s w (alignTo w a) v } x)) := by
  unfold store
  cases storeHitsPipeline s w (alignTo w a)
  · exact .inr ⟨rfl, _, rfl⟩
  · exact .inl ⟨rfl, rfl⟩

theorem store_eq_next {s t : State} {q : Bool} {w : Width} {a v : Word} (h : store s q w a v = .next t) :
    storeHitsPipeline s w (alignTo w a) = false
      ∧ ∃ x : BusAccess, t = noteAccess { s with mem := busWrite s w (alignTo w a) v } x := by
  rcases store_cases s q w a v with ⟨_, e⟩ | ⟨hf, x, e⟩
  · rw [e] at h; cases h
  · rw [e] at h; cases h; exact ⟨hf, x, rfl⟩

theorem store_ne_refused (s : State) (q : Bool) (w : Width) (a v : Word) (x : Refusal) : store s q w a v ≠ .refused x := by
  rcases store_cases s q w a v with ⟨_, e⟩ | ⟨_, _, e⟩ <;> rw [e] <;> simp

/-! ## Status registers -/

/-- What a write of CPSR gives when it answers a next state: the state with another CPSR, T kept. -/
theorem writeCpsr_eq_next {s t : State} {v : Word} {mask : BitVec 4} (h : writeCpsr s v mask = .next t) :
    ∃ p : Psr, t = { s with cpsr := p } ∧ p.t = s.cpsr.t
      ∧ (s.cpsr.mode = .user → p.mode = .user ∧ p.i = s.cpsr.i ∧ p.f = s.cpsr.f) := by
  unfold writeCpsr at h
  dsimp only at h
  generalize he : (if s.cpsr.mode.privileged = true then mask else mask &&& 0b1000#4) = eff at h
  have hp : ∃ p : Psr, (if eff.getLsbD 3 = true then flagsFrom s.cpsr v else s.cpsr) = p
      ∧ p.t = s.cpsr.t ∧ p.mode = s.cpsr.mode ∧ p.i = s.cpsr.i ∧ p.f = s.cpsr.f := by
    refine ⟨_, rfl, ?_⟩
    split <;> simp [flagsFrom]
  obtain ⟨p, hp, ht, hm, hi, hf⟩ := hp
  rw [hp] at h
  by_cases hc : eff.getLsbD 0 = true
  · rw [if_pos hc, faultIf_eq_next] at h
    obtain ⟨-, h⟩ := h
    cases hb : modeOfBits (v.extractLsb' 0 5) with
    | none => simp [hb] at h
    | some m =>
      simp only [hb, Host.Outcome.next.injEq] at h
      refine ⟨_, h.symm, ht, fun hu => ?_⟩
      have : eff.getLsbD 0 = false := by
        rw [← he]; simp [hu, Mode.privileged]
      rw [this] at hc
      cases hc
  · rw [if_neg hc] at h
    simp only [Host.Outcome.next.injEq] at h
    exact ⟨p, h.symm, ht, fun hu => ⟨hm.trans hu, hi, hf⟩⟩

theorem writeCpsr_ne_refused (s : State) (v : Word) (mask : BitVec 4) (x : Refusal) : writeCpsr s v mask ≠ .refused x := by
  unfold writeCpsr
  dsimp only
  generalize (if s.cpsr.mode.privileged = true then mask else mask &&& 0b1000#4) = eff
  split
  · refine faultIf_ne_refused ?_
    cases modeOfBits (v.extractLsb' 0 5) <;> simp
  · simp

/-- What a write of the SPSR gives. -/
theorem writeSpsr_eq_next {s t : State} {v : Word} {mask : BitVec 4} (h : writeSpsr s v mask = .next t) :
    ∃ n, s.cpsr.mode.spsr = some n ∧ t = setSpsr s n (mergeFields (readSpsr s n) v mask) := by
  unfold writeSpsr at h
  split at h
  · cases h
  · next n hn => cases h; exact ⟨n, hn, rfl⟩

theorem writeSpsr_ne_refused (s : State) (v : Word) (mask : BitVec 4) (x : Refusal) : writeSpsr s v mask ≠ .refused x := by
  unfold writeSpsr
  split <;> simp

/-- What a restore of CPSR gives: the mode has an SPSR, and every bit of CPSR comes from it. -/
theorem restoreCpsr_eq_next {s t : State} (h : restoreCpsr s = .next t) :
    ∃ n m, s.cpsr.mode.spsr = some n ∧ modeOfBits ((readSpsr s n).extractLsb' 0 5) = some m
      ∧ t = { s with cpsr := { flagsFrom s.cpsr (readSpsr s n) with
          i := (readSpsr s n).getLsbD 7, f := (readSpsr s n).getLsbD 6, t := (readSpsr s n).getLsbD 5, mode := m } } := by
  unfold restoreCpsr at h
  split at h
  · cases h
  · next n hn =>
    simp only at h
    split at h
    · cases h
    · next m hm => cases h; exact ⟨n, m, hn, hm, rfl⟩

theorem restoreCpsr_ne_refused (s : State) (x : Refusal) : restoreCpsr s ≠ .refused x := by
  unfold restoreCpsr
  split
  · simp
  · simp only; split <;> simp

/-- The modes without an SPSR. -/
theorem spsr_eq_none_iff (m : Mode) : m.spsr = none ↔ m = .user ∨ m = .system := by
  cases m <;> simp [Mode.spsr]

@[simp] theorem modeOfBits_toBits (m : Mode) : modeOfBits m.toBits = some m := by cases m <;> rfl

/-! ## Exception entry -/

/-- What exception entry does to the registers: the link register of the target mode, and R15. -/
theorem readPhys_enterException (k : ExceptionKind) (ret : Word) (s : State) (p : PhysReg) (h : p ≠ .pc) :
    readPhys (enterException k ret s) p = if p = bankHigh k.mode 1 then ret else readPhys s p := by
  have e : readPhys (enterException k ret s) p = readPhys (writePhys s (bankHigh k.mode 1) ret) p := by
    cases k <;> cases p <;> first | rfl | exact absurd rfl h
  rw [e, readPhys_writePhys]

/-- What exception entry does to the SPSRs: that of the target mode holds the old CPSR. -/
theorem readSpsr_enterException (k : ExceptionKind) (ret : Word) (s : State) (n : SpsrName) :
    readSpsr (enterException k ret s) n = if n = k.spsr then cpsrRead s else readSpsr s n := by
  cases k <;> cases n <;> rfl

theorem raiseUndefined_ne_refused (s : State) (x : Refusal) : raiseUndefined s ≠ .refused x := by simp [raiseUndefined]

theorem raiseSoftwareInterrupt_ne_refused (s : State) (x : Refusal) : raiseSoftwareInterrupt s ≠ .refused x := by
  simp [raiseSoftwareInterrupt]

end Sys2Proof.Machine
end

