-- ==== Sys2Proof/Laws/Block.lean ====
section
/-! SUPPORT. Block transfers: what is loaded into which register, what is stored at which address, when a
block store faults. -/

namespace Sys2Proof.Machine

open Sys2Proof

/-- The address of the k-th word of a block. -/
theorem block_addr_succ (a : Word) (k : Nat) :
    a + 4 + BitVec.ofNat 32 (4 * k) = a + BitVec.ofNat 32 (4 * (k + 1)) := by
  rw [BitVec.add_assoc]
  congr 1
  rw [show (4 : Word) = BitVec.ofNat 32 4 from rfl, ← BitVec.ofNat_add]
  congr 1
  omega

/-! ## Loads -/

/-- The k-th entry of a block load: the k-th register with the word 4k bytes on, as the interface answers it after
the k reads before it. -/
theorem blockValues_getElem? (s : State) (q : Bool) (a : Word) (regs : List Reg) (k : Nat) :
    (blockValues s q a regs)[k]? = regs[k]?.map (fun r =>
      (r, busRead (noteBlockLoads s q a (regs.take k)) .word (alignWord (a + BitVec.ofNat 32 (4 * k))))) := by
  induction regs generalizing s q a k with
  | nil => simp [blockValues]
  | cons r rest ih =>
    cases k with
    | zero => simp [blockValues, noteBlockLoads]
    | succ k =>
      simp only [blockValues, List.getElem?_cons_succ, ih, block_addr_succ, List.take_succ_cons, noteBlockLoads]

/-- What a block load reads from ordinary memory is what memory held before it. -/
theorem busRead_noteBlockLoads_ordinary {s : State} {b : Word} (q : Bool) (a : Word) (rs : List Reg) (w : Width)
    (h : isDevice s.devices b = false) : busRead (noteBlockLoads s q a rs) w b = memRead s.mem w b := by
  rw [busRead_ordinary w (by simpa using h)]
  simp

/-- A debit before a block load changes nothing that it reads. -/
theorem noteBlockLoads_charge (s : State) (n : Nat) (q : Bool) (a : Word) (rs : List Reg) :
    noteBlockLoads (charge s n) q a rs = charge (noteBlockLoads s q a rs) n := by
  induction rs generalizing s q a with
  | nil => rfl
  | cons r rest ih =>
    simp only [noteBlockLoads]
    rw [← ih]
    congr 1
    simp only [noteLoad, noteAccess, charge, busRead]
    congr 1
    omega

/-- The registers of a block load, in order. -/
@[simp] theorem blockValues_map_fst (s : State) (q : Bool) (a : Word) (regs : List Reg) :
    (blockValues s q a regs).map Prod.fst = regs := by
  induction regs generalizing s q a with
  | nil => rfl
  | cons r rest ih => simp [blockValues, ih]

/-- Writing a list of different registers leaves each with its own value. -/
theorem readReg_setRegs_of_mem (s : State) (l : List (Reg × Word)) (h : (l.map Prod.fst).Nodup) (r : Reg) (v : Word)
    (hm : (r, v) ∈ l) (hr : r ≠ 15) : readReg (setRegs s l) r = v := by
  induction l generalizing s with
  | nil => simp at hm
  | cons x rest ih =>
    obtain ⟨q, u⟩ := x
    simp only [List.map_cons, List.nodup_cons] at h
    simp only [setRegs]
    rcases List.mem_cons.1 hm with e | hm
    · cases e
      simp only [hr, ↓reduceIte, readReg, setRegs_cpsr]
      rw [readPhys_setRegs_of_not_mem]
      · simpa [readReg] using readReg_setReg_same s r v
      · intro y hy _ hb
        simp only [setReg_cpsr, bank_injective] at hb
        exact h.1 (List.mem_map.2 ⟨y, hy, hb.symm⟩)
    · exact ih _ h.2 hm

/-- The same in the User bank. -/
theorem readUsrReg_setUsrRegs_of_mem (s : State) (l : List (Reg × Word)) (h : (l.map Prod.fst).Nodup) (r : Reg)
    (v : Word) (hm : (r, v) ∈ l) : readUsrReg (setUsrRegs s l) r = v := by
  induction l generalizing s with
  | nil => simp at hm
  | cons x rest ih =>
    obtain ⟨q, u⟩ := x
    simp only [List.map_cons, List.nodup_cons] at h
    simp only [setUsrRegs]
    rcases List.mem_cons.1 hm with e | hm
    · cases e
      rw [readUsrReg, readPhys_setUsrRegs_of_not_mem]
      · exact readPhys_writePhys_same s _ v
      · intro y hy hb
        rw [bank_injective] at hb
        exact h.1 (List.mem_map.2 ⟨y, hy, hb.symm⟩)
    · exact ih _ h.2 hm

/-! ## Stores -/

/-- The memory after a block of words is stored: the words of ordinary memory, in order. -/
def wordsStored (devices : List AddrRange) (m : Memory) (a : Word) : List Word → Memory
  | [] => m
  | v :: rest =>
    wordsStored devices (if isDevice devices (alignWord a) then m else memWrite m .word (alignWord a) v) (a + 4) rest

/-- Whether a store hits the fetched slots depends on R15 and T alone. -/
theorem storeHitsPipeline_congr {s t : State} (hp : t.pc = s.pc) (hc : t.cpsr = s.cpsr) (w : Width) (a : Word) :
    storeHitsPipeline t w a = storeHitsPipeline s w a := by
  simp [storeHitsPipeline, instrWidth, hp, hc]

/-- A block store none of whose words hits the fetched slots stores them all and changes only memory, the
platform's state, the record of accesses and the budget. -/
theorem storeBlock_next (s : State) (q : Bool) (a : Word) (ws : List Word)
    (h : ∀ k, k < ws.length → storeHitsPipeline s .word (alignWord (a + BitVec.ofNat 32 (4 * k))) = false) :
    ∃ platform bus budget, storeBlock s q a ws = .next { s with
      mem := wordsStored s.devices s.mem a ws, platform := platform, bus := bus, cycleBudget := budget } := by
  induction ws generalizing s q a with
  | nil => exact ⟨s.platform, s.bus, s.cycleBudget, rfl⟩
  | cons v rest ih =>
    have h0 : storeHitsPipeline s .word (alignTo .word a) = false := by
      simpa [alignTo] using h 0 (by simp)
    rcases store_cases s q .word a v with ⟨e, _⟩ | ⟨_, x, e⟩
    · rw [h0] at e; cases e
    · simp only [storeBlock, e, andThen_next]
      obtain ⟨platform, bus, budget, hb⟩ := ih
        (noteAccess { s with mem := busWrite s .word (alignTo .word a) v } x) true
        (a + 4) (fun k hk => by
          rw [block_addr_succ]
          exact (storeHitsPipeline_congr rfl rfl _ _).trans (h (k + 1) (by simpa using hk)))
      exact ⟨platform, bus, budget, hb⟩

/-- A block store one of whose words hits the fetched slots faults. -/
theorem storeBlock_fault (s : State) (q : Bool) (a : Word) (ws : List Word) (k : Nat) (hk : k < ws.length)
    (h : storeHitsPipeline s .word (alignWord (a + BitVec.ofNat 32 (4 * k))) = true) :
    storeBlock s q a ws = .fault (.pipelineHazard s.pc) := by
  induction ws generalizing s q a k with
  | nil => simp at hk
  | cons v rest ih =>
    rcases store_cases s q .word a v with ⟨_, e⟩ | ⟨hf, x, e⟩
    · simp [storeBlock, e]
    · simp only [storeBlock, e, andThen_next]
      cases k with
      | zero =>
        rw [show alignWord (a + BitVec.ofNat 32 (4 * 0)) = alignTo .word a by simp [alignTo], hf] at h
        cases h
      | succ k =>
        exact ih _ true (a + 4) k (by simpa using hk) (by
          rw [block_addr_succ]
          exact (storeHitsPipeline_congr rfl rfl _ _).trans h)

/-- A byte outside every stored word reads as before. -/
theorem byteAt_wordsStored_of_outside (l : List AddrRange) (m : Memory) (a : Word) (ws : List Word) (b : Word)
    (h : ∀ k, k < ws.length → isDevice l (alignWord (a + BitVec.ofNat 32 (4 * k))) = false → ∀ j, j < 4 →
      b ≠ alignWord (a + BitVec.ofNat 32 (4 * k)) + BitVec.ofNat 32 j) :
    byteAt (wordsStored l m a ws) b = byteAt m b := by
  induction ws generalizing m a with
  | nil => rfl
  | cons v rest ih =>
    rw [wordsStored, ih _ _ (fun k hk hd j hj => by
      rw [block_addr_succ] at hd ⊢; exact h (k + 1) (by simpa using hk) hd j hj)]
    split
    · rfl
    · next hd =>
      exact byteAt_memWrite_of_outside _ _ _ _ _ (fun j hj => by
        simpa using h 0 (by simp) (by simpa using hd) j (by simpa [Width.bytes] using hj))

/-- Each word stored to ordinary memory reads back as the word of the list. -/
theorem memRead_wordsStored (l : List AddrRange) (m : Memory) (a : Word) (ws : List Word) (hl : ws.length ≤ 16)
    (k : Nat) (v : Word) (hk : ws[k]? = some v)
    (hd : isDevice l (alignWord (a + BitVec.ofNat 32 (4 * k))) = false) :
    memRead (wordsStored l m a ws) .word (alignWord (a + BitVec.ofNat 32 (4 * k))) = v := by
  induction ws generalizing m a k with
  | nil => simp at hk
  | cons u rest ih =>
    simp only [List.length_cons] at hl
    cases k with
    | succ k =>
      rw [wordsStored]
      rw [← block_addr_succ] at hd ⊢
      exact ih _ _ (by omega) k (by simpa using hk) hd
    | zero =>
      simp only [List.getElem?_cons_zero, Option.some.injEq] at hk
      subst hk
      have hd : isDevice l (alignWord a) = false := by simpa using hd
      have hb : ∀ j, j < 4 →
          byteAt (wordsStored l m a (u :: rest)) (alignWord a + BitVec.ofNat 32 j)
            = byteAt (memWrite m .word (alignWord a) u) (alignWord a + BitVec.ofNat 32 j) := by
        intro j hj
        rw [wordsStored, hd, if_neg (by simp)]
        refine byteAt_wordsStored_of_outside _ _ _ _ _ (fun n hn _ i hi e => ?_)
        rw [block_addr_succ, alignWord_add] at e
        have e := congrArg BitVec.toNat e
        simp only [BitVec.toNat_add, BitVec.toNat_ofNat] at e
        omega
      have h0 := hb 0 (by omega)
      have h1 := hb 1 (by omega)
      have h2 := hb 2 (by omega)
      have h3 := hb 3 (by omega)
      simp only [BitVec.add_zero, show BitVec.ofNat 32 1 = (1 : Word) from rfl, show BitVec.ofNat 32 2 = (2 : Word) from rfl,
        show BitVec.ofNat 32 3 = (3 : Word) from rfl] at h0 h1 h2 h3
      have e := memRead_memWrite_word m (alignWord a) u
      simp only [memRead] at e ⊢
      simp only [Nat.mul_zero, BitVec.add_zero, h0, h1, h2, h3]
      exact e

end Sys2Proof.Machine
end

