-- ==== Sys2Proof/Laws/Encoding.lean ====
section
/-! SUPPORT. Words and their parts: cutting a word and joining the parts are inverse to each other, and so are
the condition and shift codes; what the joined fields hold. -/

namespace Sys2Proof

/-! ## Codes -/

@[simp] theorem condOfBits_condBits (c : Cond) : condOfBits (condBits c) = c := by cases c <;> rfl

@[simp] theorem condBits_condOfBits (b : BitVec 4) : condBits (condOfBits b) = b := by revert b; decide

@[simp] theorem shiftOfBits_bits (k : ShiftKind) : shiftOfBits (shiftBit1 k) (shiftBit0 k) = k := by cases k <;> rfl

@[simp] theorem shiftBit1_shiftOfBits (a b : Bool) : shiftBit1 (shiftOfBits a b) = a := by
  cases a <;> cases b <;> rfl

@[simp] theorem shiftBit0_shiftOfBits (a b : Bool) : shiftBit0 (shiftOfBits a b) = b := by
  cases a <;> cases b <;> rfl

/-! ## ARM words -/

/-- The bits of a word of parts. -/
theorem ArmParts.getLsbD_toWord (p : ArmParts) (i : Nat) :
    p.toWord.getLsbD i =
      if i < 4 then p.f0.getLsbD i
      else if i < 8 then (if i = 4 then p.b4 else if i = 5 then p.b5 else if i = 6 then p.b6 else p.b7)
      else if i < 12 then p.f8.getLsbD (i - 8)
      else if i < 16 then p.f12.getLsbD (i - 12)
      else if i < 20 then p.f16.getLsbD (i - 16)
      else if i < 28 then
        (if i = 20 then p.b20 else if i = 21 then p.b21 else if i = 22 then p.b22 else if i = 23 then p.b23
         else if i = 24 then p.b24 else if i = 25 then p.b25 else if i = 26 then p.b26 else p.b27)
      else p.cond.getLsbD (i - 28) := by
  have h : p.toWord = BitVec.cast (m := 32) rfl (p.cond
    ++ BitVec.ofBool p.b27 ++ BitVec.ofBool p.b26 ++ BitVec.ofBool p.b25 ++ BitVec.ofBool p.b24
    ++ BitVec.ofBool p.b23 ++ BitVec.ofBool p.b22 ++ BitVec.ofBool p.b21 ++ BitVec.ofBool p.b20
    ++ p.f16 ++ p.f12 ++ p.f8
    ++ BitVec.ofBool p.b7 ++ BitVec.ofBool p.b6 ++ BitVec.ofBool p.b5 ++ BitVec.ofBool p.b4
    ++ p.f0) := rfl
  rw [h]
  by_cases hi : i < 32
  · simp only [BitVec.getLsbD_cast, BitVec.getLsbD_append, BitVec.getLsbD_ofBool]
    interval_cases i <;> simp
  · rw [BitVec.getLsbD_of_ge _ _ (by omega)]
    repeat rw [if_neg (by omega)]
    rw [BitVec.getLsbD_of_ge _ _ (by omega)]

@[simp] theorem ArmParts.toWord_ofWord (w : Word) : (ArmParts.ofWord w).toWord = w := by
  apply BitVec.eq_of_getLsbD_eq
  intro i hi
  rw [ArmParts.getLsbD_toWord]
  interval_cases i <;> simp [ArmParts.ofWord]

@[simp] theorem ArmParts.ofWord_toWord (p : ArmParts) : ArmParts.ofWord p.toWord = p := by
  cases p
  simp only [ArmParts.ofWord, ArmParts.mk.injEq, ArmParts.getLsbD_toWord]
  refine ⟨?_, rfl, rfl, rfl, rfl, rfl, rfl, rfl, rfl, ?_, ?_, ?_, rfl, rfl, rfl, rfl, ?_⟩ <;>
    (apply BitVec.eq_of_getLsbD_eq
     intro i hi
     rw [BitVec.getLsbD_extractLsb', ArmParts.getLsbD_toWord]
     interval_cases i <;> simp)

/-- Decoding a word of parts is decoding the parts. -/
@[simp] theorem decodeArm_toWord (p : ArmParts) : decodeArm p.toWord = decodeArmParts p := by simp [decodeArm]

/-- The bitwise and of two words' parts. -/
def ArmParts.mask (p m : ArmParts) : ArmParts :=
  { cond := p.cond &&& m.cond
    b27 := p.b27 && m.b27, b26 := p.b26 && m.b26, b25 := p.b25 && m.b25, b24 := p.b24 && m.b24
    b23 := p.b23 && m.b23, b22 := p.b22 && m.b22, b21 := p.b21 && m.b21, b20 := p.b20 && m.b20
    f16 := p.f16 &&& m.f16, f12 := p.f12 &&& m.f12, f8 := p.f8 &&& m.f8
    b7 := p.b7 && m.b7, b6 := p.b6 && m.b6, b5 := p.b5 && m.b5, b4 := p.b4 && m.b4
    f0 := p.f0 &&& m.f0 }

theorem ArmParts.ofWord_and (v w : Word) :
    ArmParts.ofWord (v &&& w) = (ArmParts.ofWord v).mask (ArmParts.ofWord w) := by
  simp [ArmParts.ofWord, ArmParts.mask, BitVec.extractLsb'_and]

/-- A word of parts matches a row when its parts do. -/
theorem ArmParts.toWord_and_eq (p : ArmParts) (m v : Word) (h : p.mask (ArmParts.ofWord m) = ArmParts.ofWord v) :
    p.toWord &&& m = v := by
  rw [← ArmParts.toWord_ofWord (p.toWord &&& m), ArmParts.ofWord_and, ArmParts.ofWord_toWord, h,
    ArmParts.toWord_ofWord]

/-! ## Thumb halfwords -/

/-- The bits of a halfword of parts. -/
theorem ThumbParts.getLsbD_toHalf (p : ThumbParts) (i : Nat) (hi : i < 16) :
    p.toHalf.getLsbD i =
      if i < 3 then p.f0.getLsbD i
      else if i < 6 then p.f3.getLsbD (i - 3)
      else if i = 6 then p.b6 else if i = 7 then p.b7 else if i = 8 then p.b8 else if i = 9 then p.b9
      else if i = 10 then p.b10 else if i = 11 then p.b11 else if i = 12 then p.b12 else if i = 13 then p.b13
      else if i = 14 then p.b14 else p.b15 := by
  have h : p.toHalf = BitVec.cast (m := 16) rfl (
    BitVec.ofBool p.b15 ++ BitVec.ofBool p.b14 ++ BitVec.ofBool p.b13 ++ BitVec.ofBool p.b12
    ++ BitVec.ofBool p.b11 ++ BitVec.ofBool p.b10 ++ BitVec.ofBool p.b9 ++ BitVec.ofBool p.b8
    ++ BitVec.ofBool p.b7 ++ BitVec.ofBool p.b6 ++ p.f3 ++ p.f0) := rfl
  rw [h]
  simp only [BitVec.getLsbD_cast, BitVec.getLsbD_append, BitVec.getLsbD_ofBool]
  interval_cases i <;> simp

@[simp] theorem ThumbParts.toHalf_ofHalf (h : Half) : (ThumbParts.ofHalf h).toHalf = h := by
  apply BitVec.eq_of_getLsbD_eq
  intro i hi
  rw [ThumbParts.getLsbD_toHalf _ _ hi]
  interval_cases i <;> simp [ThumbParts.ofHalf]

@[simp] theorem ThumbParts.ofHalf_toHalf (p : ThumbParts) : ThumbParts.ofHalf p.toHalf = p := by
  cases p
  simp only [ThumbParts.ofHalf, ThumbParts.mk.injEq]
  refine ⟨?_, ?_, ?_, ?_, ?_, ?_, ?_, ?_, ?_, ?_, ?_, ?_⟩ <;> first
    | (rw [ThumbParts.getLsbD_toHalf _ _ (by omega)]; rfl)
    | (apply BitVec.eq_of_getLsbD_eq
       intro i hi
       rw [BitVec.getLsbD_extractLsb', ThumbParts.getLsbD_toHalf _ _ (by omega)]
       interval_cases i <;> simp)

/-- Decoding a halfword of parts is decoding the parts. -/
@[simp] theorem decodeThumb_toHalf (p : ThumbParts) : decodeThumb p.toHalf = decodeThumbParts p := by
  simp [decodeThumb]

/-- The bitwise and of two halfwords' parts. -/
def ThumbParts.mask (p m : ThumbParts) : ThumbParts :=
  { b15 := p.b15 && m.b15, b14 := p.b14 && m.b14, b13 := p.b13 && m.b13, b12 := p.b12 && m.b12
    b11 := p.b11 && m.b11, b10 := p.b10 && m.b10, b9 := p.b9 && m.b9, b8 := p.b8 && m.b8
    b7 := p.b7 && m.b7, b6 := p.b6 && m.b6, f3 := p.f3 &&& m.f3, f0 := p.f0 &&& m.f0 }

theorem ThumbParts.ofHalf_and (v w : Half) :
    ThumbParts.ofHalf (v &&& w) = (ThumbParts.ofHalf v).mask (ThumbParts.ofHalf w) := by
  simp [ThumbParts.ofHalf, ThumbParts.mask, BitVec.extractLsb'_and]

/-- A halfword of parts matches a row when its parts do. -/
theorem ThumbParts.toHalf_and_eq (p : ThumbParts) (m v : Half)
    (h : p.mask (ThumbParts.ofHalf m) = ThumbParts.ofHalf v) : p.toHalf &&& m = v := by
  rw [← ThumbParts.toHalf_ofHalf (p.toHalf &&& m), ThumbParts.ofHalf_and, ThumbParts.ofHalf_toHalf, h,
    ThumbParts.toHalf_ofHalf]

/-! ## Fields that span several parts: what they hold, and that a value cut as the encoder cuts it is joined again -/

theorem ArmParts.getLsbD_bits23_21 (p : ArmParts) (i : Nat) (hi : i < 3) :
    p.bits23_21.getLsbD i = if i < 1 then p.b21 else if i < 2 then p.b22 else p.b23 := by
  have h : p.bits23_21 = BitVec.cast (m := 3) rfl (BitVec.ofBool p.b23 ++ BitVec.ofBool p.b22 ++ BitVec.ofBool p.b21) := rfl
  rw [h]
  simp only [BitVec.getLsbD_cast, BitVec.getLsbD_append, BitVec.getLsbD_ofBool]
  interval_cases i <;> simp

@[simp] theorem ArmParts.bits23_21_join (x : BitVec 3) :
    (BitVec.ofBool x[2] ++ BitVec.ofBool x[1] ++ BitVec.ofBool x[0] : BitVec 3) = x := by
  apply BitVec.eq_of_getLsbD_eq
  intro i hi
  have h : (BitVec.ofBool x[2] ++ BitVec.ofBool x[1] ++ BitVec.ofBool x[0] : BitVec 3) =
    BitVec.cast (m := 3) rfl (BitVec.ofBool (x.getLsbD 2) ++ BitVec.ofBool (x.getLsbD 1) ++ BitVec.ofBool (x.getLsbD 0)) := rfl
  rw [h]
  simp only [BitVec.getLsbD_cast, BitVec.getLsbD_append, BitVec.getLsbD_ofBool]
  interval_cases i <;> simp

@[simp] theorem ArmParts.bits23_21_b23 (p : ArmParts) : p.bits23_21[2] = p.b23 := by
  rw [← BitVec.getLsbD_eq_getElem, ArmParts.getLsbD_bits23_21 _ _ (by omega)]
  simp

@[simp] theorem ArmParts.bits23_21_b22 (p : ArmParts) : p.bits23_21[1] = p.b22 := by
  rw [← BitVec.getLsbD_eq_getElem, ArmParts.getLsbD_bits23_21 _ _ (by omega)]
  simp

@[simp] theorem ArmParts.bits23_21_b21 (p : ArmParts) : p.bits23_21[0] = p.b21 := by
  rw [← BitVec.getLsbD_eq_getElem, ArmParts.getLsbD_bits23_21 _ _ (by omega)]
  simp

theorem ArmParts.getLsbD_bits23_20 (p : ArmParts) (i : Nat) (hi : i < 4) :
    p.bits23_20.getLsbD i = if i < 1 then p.b20 else if i < 2 then p.b21 else if i < 3 then p.b22 else p.b23 := by
  have h : p.bits23_20 = BitVec.cast (m := 4) rfl (BitVec.ofBool p.b23 ++ BitVec.ofBool p.b22 ++ BitVec.ofBool p.b21 ++ BitVec.ofBool p.b20) := rfl
  rw [h]
  simp only [BitVec.getLsbD_cast, BitVec.getLsbD_append, BitVec.getLsbD_ofBool]
  interval_cases i <;> simp

@[simp] theorem ArmParts.bits23_20_join (x : BitVec 4) :
    (BitVec.ofBool x[3] ++ BitVec.ofBool x[2] ++ BitVec.ofBool x[1] ++ BitVec.ofBool x[0] : BitVec 4) = x := by
  apply BitVec.eq_of_getLsbD_eq
  intro i hi
  have h : (BitVec.ofBool x[3] ++ BitVec.ofBool x[2] ++ BitVec.ofBool x[1] ++ BitVec.ofBool x[0] : BitVec 4) =
    BitVec.cast (m := 4) rfl (BitVec.ofBool (x.getLsbD 3) ++ BitVec.ofBool (x.getLsbD 2) ++ BitVec.ofBool (x.getLsbD 1) ++ BitVec.ofBool (x.getLsbD 0)) := rfl
  rw [h]
  simp only [BitVec.getLsbD_cast, BitVec.getLsbD_append, BitVec.getLsbD_ofBool]
  interval_cases i <;> simp

@[simp] theorem ArmParts.bits23_20_b23 (p : ArmParts) : p.bits23_20[3] = p.b23 := by
  rw [← BitVec.getLsbD_eq_getElem, ArmParts.getLsbD_bits23_20 _ _ (by omega)]
  simp

@[simp] theorem ArmParts.bits23_20_b22 (p : ArmParts) : p.bits23_20[2] = p.b22 := by
  rw [← BitVec.getLsbD_eq_getElem, ArmParts.getLsbD_bits23_20 _ _ (by omega)]
  simp

@[simp] theorem ArmParts.bits23_20_b21 (p : ArmParts) : p.bits23_20[1] = p.b21 := by
  rw [← BitVec.getLsbD_eq_getElem, ArmParts.getLsbD_bits23_20 _ _ (by omega)]
  simp

@[simp] theorem ArmParts.bits23_20_b20 (p : ArmParts) : p.bits23_20[0] = p.b20 := by
  rw [← BitVec.getLsbD_eq_getElem, ArmParts.getLsbD_bits23_20 _ _ (by omega)]
  simp

theorem ArmParts.getLsbD_bits23_0 (p : ArmParts) (i : Nat) (hi : i < 24) :
    p.bits23_0.getLsbD i = if i < 4 then p.f0.getLsbD i else if i < 5 then p.b4 else if i < 6 then p.b5 else if i < 7 then p.b6 else if i < 8 then p.b7 else if i < 12 then p.f8.getLsbD (i - 8) else if i < 16 then p.f12.getLsbD (i - 12) else if i < 20 then p.f16.getLsbD (i - 16) else if i < 21 then p.b20 else if i < 22 then p.b21 else if i < 23 then p.b22 else p.b23 := by
  have h : p.bits23_0 = BitVec.cast (m := 24) rfl (BitVec.ofBool p.b23 ++ BitVec.ofBool p.b22 ++ BitVec.ofBool p.b21 ++ BitVec.ofBool p.b20 ++ p.f16 ++ p.f12 ++ p.f8 ++ BitVec.ofBool p.b7 ++ BitVec.ofBool p.b6 ++ BitVec.ofBool p.b5 ++ BitVec.ofBool p.b4 ++ p.f0) := rfl
  rw [h]
  simp only [BitVec.getLsbD_cast, BitVec.getLsbD_append, BitVec.getLsbD_ofBool]
  interval_cases i <;> simp

@[simp] theorem ArmParts.bits23_0_join (x : BitVec 24) :
    (BitVec.ofBool x[23] ++ BitVec.ofBool x[22] ++ BitVec.ofBool x[21] ++ BitVec.ofBool x[20] ++ x.extractLsb' 16 4 ++ x.extractLsb' 12 4 ++ x.extractLsb' 8 4 ++ BitVec.ofBool x[7] ++ BitVec.ofBool x[6] ++ BitVec.ofBool x[5] ++ BitVec.ofBool x[4] ++ x.extractLsb' 0 4 : BitVec 24) = x := by
  apply BitVec.eq_of_getLsbD_eq
  intro i hi
  have h : (BitVec.ofBool x[23] ++ BitVec.ofBool x[22] ++ BitVec.ofBool x[21] ++ BitVec.ofBool x[20] ++ x.extractLsb' 16 4 ++ x.extractLsb' 12 4 ++ x.extractLsb' 8 4 ++ BitVec.ofBool x[7] ++ BitVec.ofBool x[6] ++ BitVec.ofBool x[5] ++ BitVec.ofBool x[4] ++ x.extractLsb' 0 4 : BitVec 24) =
    BitVec.cast (m := 24) rfl (BitVec.ofBool (x.getLsbD 23) ++ BitVec.ofBool (x.getLsbD 22) ++ BitVec.ofBool (x.getLsbD 21) ++ BitVec.ofBool (x.getLsbD 20) ++ x.extractLsb' 16 4 ++ x.extractLsb' 12 4 ++ x.extractLsb' 8 4 ++ BitVec.ofBool (x.getLsbD 7) ++ BitVec.ofBool (x.getLsbD 6) ++ BitVec.ofBool (x.getLsbD 5) ++ BitVec.ofBool (x.getLsbD 4) ++ x.extractLsb' 0 4) := rfl
  rw [h]
  simp only [BitVec.getLsbD_cast, BitVec.getLsbD_append, BitVec.getLsbD_ofBool, BitVec.getLsbD_extractLsb']
  interval_cases i <;> simp

@[simp] theorem ArmParts.bits23_0_b23 (p : ArmParts) : p.bits23_0[23] = p.b23 := by
  rw [← BitVec.getLsbD_eq_getElem, ArmParts.getLsbD_bits23_0 _ _ (by omega)]
  simp

@[simp] theorem ArmParts.bits23_0_b22 (p : ArmParts) : p.bits23_0[22] = p.b22 := by
  rw [← BitVec.getLsbD_eq_getElem, ArmParts.getLsbD_bits23_0 _ _ (by omega)]
  simp

@[simp] theorem ArmParts.bits23_0_b21 (p : ArmParts) : p.bits23_0[21] = p.b21 := by
  rw [← BitVec.getLsbD_eq_getElem, ArmParts.getLsbD_bits23_0 _ _ (by omega)]
  simp

@[simp] theorem ArmParts.bits23_0_b20 (p : ArmParts) : p.bits23_0[20] = p.b20 := by
  rw [← BitVec.getLsbD_eq_getElem, ArmParts.getLsbD_bits23_0 _ _ (by omega)]
  simp

@[simp] theorem ArmParts.bits23_0_f16 (p : ArmParts) : p.bits23_0.extractLsb' 16 4 = p.f16 := by
  apply BitVec.eq_of_getLsbD_eq
  intro i hi
  rw [BitVec.getLsbD_extractLsb', ArmParts.getLsbD_bits23_0 _ _ (by omega)]
  interval_cases i <;> simp

@[simp] theorem ArmParts.bits23_0_f12 (p : ArmParts) : p.bits23_0.extractLsb' 12 4 = p.f12 := by
  apply BitVec.eq_of_getLsbD_eq
  intro i hi
  rw [BitVec.getLsbD_extractLsb', ArmParts.getLsbD_bits23_0 _ _ (by omega)]
  interval_cases i <;> simp

@[simp] theorem ArmParts.bits23_0_f8 (p : ArmParts) : p.bits23_0.extractLsb' 8 4 = p.f8 := by
  apply BitVec.eq_of_getLsbD_eq
  intro i hi
  rw [BitVec.getLsbD_extractLsb', ArmParts.getLsbD_bits23_0 _ _ (by omega)]
  interval_cases i <;> simp

@[simp] theorem ArmParts.bits23_0_b7 (p : ArmParts) : p.bits23_0[7] = p.b7 := by
  rw [← BitVec.getLsbD_eq_getElem, ArmParts.getLsbD_bits23_0 _ _ (by omega)]
  simp

@[simp] theorem ArmParts.bits23_0_b6 (p : ArmParts) : p.bits23_0[6] = p.b6 := by
  rw [← BitVec.getLsbD_eq_getElem, ArmParts.getLsbD_bits23_0 _ _ (by omega)]
  simp

@[simp] theorem ArmParts.bits23_0_b5 (p : ArmParts) : p.bits23_0[5] = p.b5 := by
  rw [← BitVec.getLsbD_eq_getElem, ArmParts.getLsbD_bits23_0 _ _ (by omega)]
  simp

@[simp] theorem ArmParts.bits23_0_b4 (p : ArmParts) : p.bits23_0[4] = p.b4 := by
  rw [← BitVec.getLsbD_eq_getElem, ArmParts.getLsbD_bits23_0 _ _ (by omega)]
  simp

@[simp] theorem ArmParts.bits23_0_f0 (p : ArmParts) : p.bits23_0.extractLsb' 0 4 = p.f0 := by
  apply BitVec.eq_of_getLsbD_eq
  intro i hi
  rw [BitVec.getLsbD_extractLsb', ArmParts.getLsbD_bits23_0 _ _ (by omega)]
  interval_cases i <;> simp

theorem ArmParts.getLsbD_bits19_8 (p : ArmParts) (i : Nat) (hi : i < 12) :
    p.bits19_8.getLsbD i = if i < 4 then p.f8.getLsbD i else if i < 8 then p.f12.getLsbD (i - 4) else p.f16.getLsbD (i - 8) := by
  have h : p.bits19_8 = BitVec.cast (m := 12) rfl (p.f16 ++ p.f12 ++ p.f8) := rfl
  rw [h]
  simp only [BitVec.getLsbD_cast, BitVec.getLsbD_append]
  interval_cases i <;> simp

@[simp] theorem ArmParts.bits19_8_join (x : BitVec 12) :
    (x.extractLsb' 8 4 ++ x.extractLsb' 4 4 ++ x.extractLsb' 0 4 : BitVec 12) = x := by
  apply BitVec.eq_of_getLsbD_eq
  intro i hi
  have h : (x.extractLsb' 8 4 ++ x.extractLsb' 4 4 ++ x.extractLsb' 0 4 : BitVec 12) =
    BitVec.cast (m := 12) rfl (x.extractLsb' 8 4 ++ x.extractLsb' 4 4 ++ x.extractLsb' 0 4) := rfl
  rw [h]
  simp only [BitVec.getLsbD_cast, BitVec.getLsbD_append, BitVec.getLsbD_extractLsb']
  interval_cases i <;> simp

@[simp] theorem ArmParts.bits19_8_f16 (p : ArmParts) : p.bits19_8.extractLsb' 8 4 = p.f16 := by
  apply BitVec.eq_of_getLsbD_eq
  intro i hi
  rw [BitVec.getLsbD_extractLsb', ArmParts.getLsbD_bits19_8 _ _ (by omega)]
  interval_cases i <;> simp

@[simp] theorem ArmParts.bits19_8_f12 (p : ArmParts) : p.bits19_8.extractLsb' 4 4 = p.f12 := by
  apply BitVec.eq_of_getLsbD_eq
  intro i hi
  rw [BitVec.getLsbD_extractLsb', ArmParts.getLsbD_bits19_8 _ _ (by omega)]
  interval_cases i <;> simp

@[simp] theorem ArmParts.bits19_8_f8 (p : ArmParts) : p.bits19_8.extractLsb' 0 4 = p.f8 := by
  apply BitVec.eq_of_getLsbD_eq
  intro i hi
  rw [BitVec.getLsbD_extractLsb', ArmParts.getLsbD_bits19_8 _ _ (by omega)]
  interval_cases i <;> simp

theorem ArmParts.getLsbD_bits15_0 (p : ArmParts) (i : Nat) (hi : i < 16) :
    p.bits15_0.getLsbD i = if i < 4 then p.f0.getLsbD i else if i < 5 then p.b4 else if i < 6 then p.b5 else if i < 7 then p.b6 else if i < 8 then p.b7 else if i < 12 then p.f8.getLsbD (i - 8) else p.f12.getLsbD (i - 12) := by
  have h : p.bits15_0 = BitVec.cast (m := 16) rfl (p.f12 ++ p.f8 ++ BitVec.ofBool p.b7 ++ BitVec.ofBool p.b6 ++ BitVec.ofBool p.b5 ++ BitVec.ofBool p.b4 ++ p.f0) := rfl
  rw [h]
  simp only [BitVec.getLsbD_cast, BitVec.getLsbD_append, BitVec.getLsbD_ofBool]
  interval_cases i <;> simp

@[simp] theorem ArmParts.bits15_0_join (x : BitVec 16) :
    (x.extractLsb' 12 4 ++ x.extractLsb' 8 4 ++ BitVec.ofBool x[7] ++ BitVec.ofBool x[6] ++ BitVec.ofBool x[5] ++ BitVec.ofBool x[4] ++ x.extractLsb' 0 4 : BitVec 16) = x := by
  apply BitVec.eq_of_getLsbD_eq
  intro i hi
  have h : (x.extractLsb' 12 4 ++ x.extractLsb' 8 4 ++ BitVec.ofBool x[7] ++ BitVec.ofBool x[6] ++ BitVec.ofBool x[5] ++ BitVec.ofBool x[4] ++ x.extractLsb' 0 4 : BitVec 16) =
    BitVec.cast (m := 16) rfl (x.extractLsb' 12 4 ++ x.extractLsb' 8 4 ++ BitVec.ofBool (x.getLsbD 7) ++ BitVec.ofBool (x.getLsbD 6) ++ BitVec.ofBool (x.getLsbD 5) ++ BitVec.ofBool (x.getLsbD 4) ++ x.extractLsb' 0 4) := rfl
  rw [h]
  simp only [BitVec.getLsbD_cast, BitVec.getLsbD_append, BitVec.getLsbD_ofBool, BitVec.getLsbD_extractLsb']
  interval_cases i <;> simp

@[simp] theorem ArmParts.bits15_0_f12 (p : ArmParts) : p.bits15_0.extractLsb' 12 4 = p.f12 := by
  apply BitVec.eq_of_getLsbD_eq
  intro i hi
  rw [BitVec.getLsbD_extractLsb', ArmParts.getLsbD_bits15_0 _ _ (by omega)]
  interval_cases i <;> simp

@[simp] theorem ArmParts.bits15_0_f8 (p : ArmParts) : p.bits15_0.extractLsb' 8 4 = p.f8 := by
  apply BitVec.eq_of_getLsbD_eq
  intro i hi
  rw [BitVec.getLsbD_extractLsb', ArmParts.getLsbD_bits15_0 _ _ (by omega)]
  interval_cases i <;> simp

@[simp] theorem ArmParts.bits15_0_b7 (p : ArmParts) : p.bits15_0[7] = p.b7 := by
  rw [← BitVec.getLsbD_eq_getElem, ArmParts.getLsbD_bits15_0 _ _ (by omega)]
  simp

@[simp] theorem ArmParts.bits15_0_b6 (p : ArmParts) : p.bits15_0[6] = p.b6 := by
  rw [← BitVec.getLsbD_eq_getElem, ArmParts.getLsbD_bits15_0 _ _ (by omega)]
  simp

@[simp] theorem ArmParts.bits15_0_b5 (p : ArmParts) : p.bits15_0[5] = p.b5 := by
  rw [← BitVec.getLsbD_eq_getElem, ArmParts.getLsbD_bits15_0 _ _ (by omega)]
  simp

@[simp] theorem ArmParts.bits15_0_b4 (p : ArmParts) : p.bits15_0[4] = p.b4 := by
  rw [← BitVec.getLsbD_eq_getElem, ArmParts.getLsbD_bits15_0 _ _ (by omega)]
  simp

@[simp] theorem ArmParts.bits15_0_f0 (p : ArmParts) : p.bits15_0.extractLsb' 0 4 = p.f0 := by
  apply BitVec.eq_of_getLsbD_eq
  intro i hi
  rw [BitVec.getLsbD_extractLsb', ArmParts.getLsbD_bits15_0 _ _ (by omega)]
  interval_cases i <;> simp

theorem ArmParts.getLsbD_bits11_7 (p : ArmParts) (i : Nat) (hi : i < 5) :
    p.bits11_7.getLsbD i = if i < 1 then p.b7 else p.f8.getLsbD (i - 1) := by
  have h : p.bits11_7 = BitVec.cast (m := 5) rfl (p.f8 ++ BitVec.ofBool p.b7) := rfl
  rw [h]
  simp only [BitVec.getLsbD_cast, BitVec.getLsbD_append, BitVec.getLsbD_ofBool]
  interval_cases i <;> simp

@[simp] theorem ArmParts.bits11_7_join (x : BitVec 5) :
    (x.extractLsb' 1 4 ++ BitVec.ofBool x[0] : BitVec 5) = x := by
  apply BitVec.eq_of_getLsbD_eq
  intro i hi
  have h : (x.extractLsb' 1 4 ++ BitVec.ofBool x[0] : BitVec 5) =
    BitVec.cast (m := 5) rfl (x.extractLsb' 1 4 ++ BitVec.ofBool (x.getLsbD 0)) := rfl
  rw [h]
  simp only [BitVec.getLsbD_cast, BitVec.getLsbD_append, BitVec.getLsbD_ofBool, BitVec.getLsbD_extractLsb']
  interval_cases i <;> simp

@[simp] theorem ArmParts.bits11_7_f8 (p : ArmParts) : p.bits11_7.extractLsb' 1 4 = p.f8 := by
  apply BitVec.eq_of_getLsbD_eq
  intro i hi
  rw [BitVec.getLsbD_extractLsb', ArmParts.getLsbD_bits11_7 _ _ (by omega)]
  interval_cases i <;> simp

@[simp] theorem ArmParts.bits11_7_b7 (p : ArmParts) : p.bits11_7[0] = p.b7 := by
  rw [← BitVec.getLsbD_eq_getElem, ArmParts.getLsbD_bits11_7 _ _ (by omega)]
  simp

theorem ArmParts.getLsbD_bits11_0 (p : ArmParts) (i : Nat) (hi : i < 12) :
    p.bits11_0.getLsbD i = if i < 4 then p.f0.getLsbD i else if i < 5 then p.b4 else if i < 6 then p.b5 else if i < 7 then p.b6 else if i < 8 then p.b7 else p.f8.getLsbD (i - 8) := by
  have h : p.bits11_0 = BitVec.cast (m := 12) rfl (p.f8 ++ BitVec.ofBool p.b7 ++ BitVec.ofBool p.b6 ++ BitVec.ofBool p.b5 ++ BitVec.ofBool p.b4 ++ p.f0) := rfl
  rw [h]
  simp only [BitVec.getLsbD_cast, BitVec.getLsbD_append, BitVec.getLsbD_ofBool]
  interval_cases i <;> simp

@[simp] theorem ArmParts.bits11_0_join (x : BitVec 12) :
    (x.extractLsb' 8 4 ++ BitVec.ofBool x[7] ++ BitVec.ofBool x[6] ++ BitVec.ofBool x[5] ++ BitVec.ofBool x[4] ++ x.extractLsb' 0 4 : BitVec 12) = x := by
  apply BitVec.eq_of_getLsbD_eq
  intro i hi
  have h : (x.extractLsb' 8 4 ++ BitVec.ofBool x[7] ++ BitVec.ofBool x[6] ++ BitVec.ofBool x[5] ++ BitVec.ofBool x[4] ++ x.extractLsb' 0 4 : BitVec 12) =
    BitVec.cast (m := 12) rfl (x.extractLsb' 8 4 ++ BitVec.ofBool (x.getLsbD 7) ++ BitVec.ofBool (x.getLsbD 6) ++ BitVec.ofBool (x.getLsbD 5) ++ BitVec.ofBool (x.getLsbD 4) ++ x.extractLsb' 0 4) := rfl
  rw [h]
  simp only [BitVec.getLsbD_cast, BitVec.getLsbD_append, BitVec.getLsbD_ofBool, BitVec.getLsbD_extractLsb']
  interval_cases i <;> simp

@[simp] theorem ArmParts.bits11_0_f8 (p : ArmParts) : p.bits11_0.extractLsb' 8 4 = p.f8 := by
  apply BitVec.eq_of_getLsbD_eq
  intro i hi
  rw [BitVec.getLsbD_extractLsb', ArmParts.getLsbD_bits11_0 _ _ (by omega)]
  interval_cases i <;> simp

@[simp] theorem ArmParts.bits11_0_b7 (p : ArmParts) : p.bits11_0[7] = p.b7 := by
  rw [← BitVec.getLsbD_eq_getElem, ArmParts.getLsbD_bits11_0 _ _ (by omega)]
  simp

@[simp] theorem ArmParts.bits11_0_b6 (p : ArmParts) : p.bits11_0[6] = p.b6 := by
  rw [← BitVec.getLsbD_eq_getElem, ArmParts.getLsbD_bits11_0 _ _ (by omega)]
  simp

@[simp] theorem ArmParts.bits11_0_b5 (p : ArmParts) : p.bits11_0[5] = p.b5 := by
  rw [← BitVec.getLsbD_eq_getElem, ArmParts.getLsbD_bits11_0 _ _ (by omega)]
  simp

@[simp] theorem ArmParts.bits11_0_b4 (p : ArmParts) : p.bits11_0[4] = p.b4 := by
  rw [← BitVec.getLsbD_eq_getElem, ArmParts.getLsbD_bits11_0 _ _ (by omega)]
  simp

@[simp] theorem ArmParts.bits11_0_f0 (p : ArmParts) : p.bits11_0.extractLsb' 0 4 = p.f0 := by
  apply BitVec.eq_of_getLsbD_eq
  intro i hi
  rw [BitVec.getLsbD_extractLsb', ArmParts.getLsbD_bits11_0 _ _ (by omega)]
  interval_cases i <;> simp

theorem ArmParts.getLsbD_bits7_5 (p : ArmParts) (i : Nat) (hi : i < 3) :
    p.bits7_5.getLsbD i = if i < 1 then p.b5 else if i < 2 then p.b6 else p.b7 := by
  have h : p.bits7_5 = BitVec.cast (m := 3) rfl (BitVec.ofBool p.b7 ++ BitVec.ofBool p.b6 ++ BitVec.ofBool p.b5) := rfl
  rw [h]
  simp only [BitVec.getLsbD_cast, BitVec.getLsbD_append, BitVec.getLsbD_ofBool]
  interval_cases i <;> simp

@[simp] theorem ArmParts.bits7_5_join (x : BitVec 3) :
    (BitVec.ofBool x[2] ++ BitVec.ofBool x[1] ++ BitVec.ofBool x[0] : BitVec 3) = x := by
  apply BitVec.eq_of_getLsbD_eq
  intro i hi
  have h : (BitVec.ofBool x[2] ++ BitVec.ofBool x[1] ++ BitVec.ofBool x[0] : BitVec 3) =
    BitVec.cast (m := 3) rfl (BitVec.ofBool (x.getLsbD 2) ++ BitVec.ofBool (x.getLsbD 1) ++ BitVec.ofBool (x.getLsbD 0)) := rfl
  rw [h]
  simp only [BitVec.getLsbD_cast, BitVec.getLsbD_append, BitVec.getLsbD_ofBool]
  interval_cases i <;> simp

@[simp] theorem ArmParts.bits7_5_b7 (p : ArmParts) : p.bits7_5[2] = p.b7 := by
  rw [← BitVec.getLsbD_eq_getElem, ArmParts.getLsbD_bits7_5 _ _ (by omega)]
  simp

@[simp] theorem ArmParts.bits7_5_b6 (p : ArmParts) : p.bits7_5[1] = p.b6 := by
  rw [← BitVec.getLsbD_eq_getElem, ArmParts.getLsbD_bits7_5 _ _ (by omega)]
  simp

@[simp] theorem ArmParts.bits7_5_b5 (p : ArmParts) : p.bits7_5[0] = p.b5 := by
  rw [← BitVec.getLsbD_eq_getElem, ArmParts.getLsbD_bits7_5 _ _ (by omega)]
  simp

theorem ArmParts.getLsbD_bits7_0 (p : ArmParts) (i : Nat) (hi : i < 8) :
    p.bits7_0.getLsbD i = if i < 4 then p.f0.getLsbD i else if i < 5 then p.b4 else if i < 6 then p.b5 else if i < 7 then p.b6 else p.b7 := by
  have h : p.bits7_0 = BitVec.cast (m := 8) rfl (BitVec.ofBool p.b7 ++ BitVec.ofBool p.b6 ++ BitVec.ofBool p.b5 ++ BitVec.ofBool p.b4 ++ p.f0) := rfl
  rw [h]
  simp only [BitVec.getLsbD_cast, BitVec.getLsbD_append, BitVec.getLsbD_ofBool]
  interval_cases i <;> simp

@[simp] theorem ArmParts.bits7_0_join (x : BitVec 8) :
    (BitVec.ofBool x[7] ++ BitVec.ofBool x[6] ++ BitVec.ofBool x[5] ++ BitVec.ofBool x[4] ++ x.extractLsb' 0 4 : BitVec 8) = x := by
  apply BitVec.eq_of_getLsbD_eq
  intro i hi
  have h : (BitVec.ofBool x[7] ++ BitVec.ofBool x[6] ++ BitVec.ofBool x[5] ++ BitVec.ofBool x[4] ++ x.extractLsb' 0 4 : BitVec 8) =
    BitVec.cast (m := 8) rfl (BitVec.ofBool (x.getLsbD 7) ++ BitVec.ofBool (x.getLsbD 6) ++ BitVec.ofBool (x.getLsbD 5) ++ BitVec.ofBool (x.getLsbD 4) ++ x.extractLsb' 0 4) := rfl
  rw [h]
  simp only [BitVec.getLsbD_cast, BitVec.getLsbD_append, BitVec.getLsbD_ofBool, BitVec.getLsbD_extractLsb']
  interval_cases i <;> simp

@[simp] theorem ArmParts.bits7_0_b7 (p : ArmParts) : p.bits7_0[7] = p.b7 := by
  rw [← BitVec.getLsbD_eq_getElem, ArmParts.getLsbD_bits7_0 _ _ (by omega)]
  simp

@[simp] theorem ArmParts.bits7_0_b6 (p : ArmParts) : p.bits7_0[6] = p.b6 := by
  rw [← BitVec.getLsbD_eq_getElem, ArmParts.getLsbD_bits7_0 _ _ (by omega)]
  simp

@[simp] theorem ArmParts.bits7_0_b5 (p : ArmParts) : p.bits7_0[5] = p.b5 := by
  rw [← BitVec.getLsbD_eq_getElem, ArmParts.getLsbD_bits7_0 _ _ (by omega)]
  simp

@[simp] theorem ArmParts.bits7_0_b4 (p : ArmParts) : p.bits7_0[4] = p.b4 := by
  rw [← BitVec.getLsbD_eq_getElem, ArmParts.getLsbD_bits7_0 _ _ (by omega)]
  simp

@[simp] theorem ArmParts.bits7_0_f0 (p : ArmParts) : p.bits7_0.extractLsb' 0 4 = p.f0 := by
  apply BitVec.eq_of_getLsbD_eq
  intro i hi
  rw [BitVec.getLsbD_extractLsb', ArmParts.getLsbD_bits7_0 _ _ (by omega)]
  interval_cases i <;> simp

theorem ThumbParts.getLsbD_bits10_8 (p : ThumbParts) (i : Nat) (hi : i < 3) :
    p.bits10_8.getLsbD i = if i < 1 then p.b8 else if i < 2 then p.b9 else p.b10 := by
  have h : p.bits10_8 = BitVec.cast (m := 3) rfl (BitVec.ofBool p.b10 ++ BitVec.ofBool p.b9 ++ BitVec.ofBool p.b8) := rfl
  rw [h]
  simp only [BitVec.getLsbD_cast, BitVec.getLsbD_append, BitVec.getLsbD_ofBool]
  interval_cases i <;> simp

@[simp] theorem ThumbParts.bits10_8_join (x : BitVec 3) :
    (BitVec.ofBool x[2] ++ BitVec.ofBool x[1] ++ BitVec.ofBool x[0] : BitVec 3) = x := by
  apply BitVec.eq_of_getLsbD_eq
  intro i hi
  have h : (BitVec.ofBool x[2] ++ BitVec.ofBool x[1] ++ BitVec.ofBool x[0] : BitVec 3) =
    BitVec.cast (m := 3) rfl (BitVec.ofBool (x.getLsbD 2) ++ BitVec.ofBool (x.getLsbD 1) ++ BitVec.ofBool (x.getLsbD 0)) := rfl
  rw [h]
  simp only [BitVec.getLsbD_cast, BitVec.getLsbD_append, BitVec.getLsbD_ofBool]
  interval_cases i <;> simp

@[simp] theorem ThumbParts.bits10_8_b10 (p : ThumbParts) : p.bits10_8[2] = p.b10 := by
  rw [← BitVec.getLsbD_eq_getElem, ThumbParts.getLsbD_bits10_8 _ _ (by omega)]
  simp

@[simp] theorem ThumbParts.bits10_8_b9 (p : ThumbParts) : p.bits10_8[1] = p.b9 := by
  rw [← BitVec.getLsbD_eq_getElem, ThumbParts.getLsbD_bits10_8 _ _ (by omega)]
  simp

@[simp] theorem ThumbParts.bits10_8_b8 (p : ThumbParts) : p.bits10_8[0] = p.b8 := by
  rw [← BitVec.getLsbD_eq_getElem, ThumbParts.getLsbD_bits10_8 _ _ (by omega)]
  simp

theorem ThumbParts.getLsbD_bits10_6 (p : ThumbParts) (i : Nat) (hi : i < 5) :
    p.bits10_6.getLsbD i = if i < 1 then p.b6 else if i < 2 then p.b7 else if i < 3 then p.b8 else if i < 4 then p.b9 else p.b10 := by
  have h : p.bits10_6 = BitVec.cast (m := 5) rfl (BitVec.ofBool p.b10 ++ BitVec.ofBool p.b9 ++ BitVec.ofBool p.b8 ++ BitVec.ofBool p.b7 ++ BitVec.ofBool p.b6) := rfl
  rw [h]
  simp only [BitVec.getLsbD_cast, BitVec.getLsbD_append, BitVec.getLsbD_ofBool]
  interval_cases i <;> simp

@[simp] theorem ThumbParts.bits10_6_join (x : BitVec 5) :
    (BitVec.ofBool x[4] ++ BitVec.ofBool x[3] ++ BitVec.ofBool x[2] ++ BitVec.ofBool x[1] ++ BitVec.ofBool x[0] : BitVec 5) = x := by
  apply BitVec.eq_of_getLsbD_eq
  intro i hi
  have h : (BitVec.ofBool x[4] ++ BitVec.ofBool x[3] ++ BitVec.ofBool x[2] ++ BitVec.ofBool x[1] ++ BitVec.ofBool x[0] : BitVec 5) =
    BitVec.cast (m := 5) rfl (BitVec.ofBool (x.getLsbD 4) ++ BitVec.ofBool (x.getLsbD 3) ++ BitVec.ofBool (x.getLsbD 2) ++ BitVec.ofBool (x.getLsbD 1) ++ BitVec.ofBool (x.getLsbD 0)) := rfl
  rw [h]
  simp only [BitVec.getLsbD_cast, BitVec.getLsbD_append, BitVec.getLsbD_ofBool]
  interval_cases i <;> simp

@[simp] theorem ThumbParts.bits10_6_b10 (p : ThumbParts) : p.bits10_6[4] = p.b10 := by
  rw [← BitVec.getLsbD_eq_getElem, ThumbParts.getLsbD_bits10_6 _ _ (by omega)]
  simp

@[simp] theorem ThumbParts.bits10_6_b9 (p : ThumbParts) : p.bits10_6[3] = p.b9 := by
  rw [← BitVec.getLsbD_eq_getElem, ThumbParts.getLsbD_bits10_6 _ _ (by omega)]
  simp

@[simp] theorem ThumbParts.bits10_6_b8 (p : ThumbParts) : p.bits10_6[2] = p.b8 := by
  rw [← BitVec.getLsbD_eq_getElem, ThumbParts.getLsbD_bits10_6 _ _ (by omega)]
  simp

@[simp] theorem ThumbParts.bits10_6_b7 (p : ThumbParts) : p.bits10_6[1] = p.b7 := by
  rw [← BitVec.getLsbD_eq_getElem, ThumbParts.getLsbD_bits10_6 _ _ (by omega)]
  simp

@[simp] theorem ThumbParts.bits10_6_b6 (p : ThumbParts) : p.bits10_6[0] = p.b6 := by
  rw [← BitVec.getLsbD_eq_getElem, ThumbParts.getLsbD_bits10_6 _ _ (by omega)]
  simp

theorem ThumbParts.getLsbD_bits10_0 (p : ThumbParts) (i : Nat) (hi : i < 11) :
    p.bits10_0.getLsbD i = if i < 3 then p.f0.getLsbD i else if i < 6 then p.f3.getLsbD (i - 3) else if i < 7 then p.b6 else if i < 8 then p.b7 else if i < 9 then p.b8 else if i < 10 then p.b9 else p.b10 := by
  have h : p.bits10_0 = BitVec.cast (m := 11) rfl (BitVec.ofBool p.b10 ++ BitVec.ofBool p.b9 ++ BitVec.ofBool p.b8 ++ BitVec.ofBool p.b7 ++ BitVec.ofBool p.b6 ++ p.f3 ++ p.f0) := rfl
  rw [h]
  simp only [BitVec.getLsbD_cast, BitVec.getLsbD_append, BitVec.getLsbD_ofBool]
  interval_cases i <;> simp

@[simp] theorem ThumbParts.bits10_0_join (x : BitVec 11) :
    (BitVec.ofBool x[10] ++ BitVec.ofBool x[9] ++ BitVec.ofBool x[8] ++ BitVec.ofBool x[7] ++ BitVec.ofBool x[6] ++ x.extractLsb' 3 3 ++ x.extractLsb' 0 3 : BitVec 11) = x := by
  apply BitVec.eq_of_getLsbD_eq
  intro i hi
  have h : (BitVec.ofBool x[10] ++ BitVec.ofBool x[9] ++ BitVec.ofBool x[8] ++ BitVec.ofBool x[7] ++ BitVec.ofBool x[6] ++ x.extractLsb' 3 3 ++ x.extractLsb' 0 3 : BitVec 11) =
    BitVec.cast (m := 11) rfl (BitVec.ofBool (x.getLsbD 10) ++ BitVec.ofBool (x.getLsbD 9) ++ BitVec.ofBool (x.getLsbD 8) ++ BitVec.ofBool (x.getLsbD 7) ++ BitVec.ofBool (x.getLsbD 6) ++ x.extractLsb' 3 3 ++ x.extractLsb' 0 3) := rfl
  rw [h]
  simp only [BitVec.getLsbD_cast, BitVec.getLsbD_append, BitVec.getLsbD_ofBool, BitVec.getLsbD_extractLsb']
  interval_cases i <;> simp

@[simp] theorem ThumbParts.bits10_0_b10 (p : ThumbParts) : p.bits10_0[10] = p.b10 := by
  rw [← BitVec.getLsbD_eq_getElem, ThumbParts.getLsbD_bits10_0 _ _ (by omega)]
  simp

@[simp] theorem ThumbParts.bits10_0_b9 (p : ThumbParts) : p.bits10_0[9] = p.b9 := by
  rw [← BitVec.getLsbD_eq_getElem, ThumbParts.getLsbD_bits10_0 _ _ (by omega)]
  simp

@[simp] theorem ThumbParts.bits10_0_b8 (p : ThumbParts) : p.bits10_0[8] = p.b8 := by
  rw [← BitVec.getLsbD_eq_getElem, ThumbParts.getLsbD_bits10_0 _ _ (by omega)]
  simp

@[simp] theorem ThumbParts.bits10_0_b7 (p : ThumbParts) : p.bits10_0[7] = p.b7 := by
  rw [← BitVec.getLsbD_eq_getElem, ThumbParts.getLsbD_bits10_0 _ _ (by omega)]
  simp

@[simp] theorem ThumbParts.bits10_0_b6 (p : ThumbParts) : p.bits10_0[6] = p.b6 := by
  rw [← BitVec.getLsbD_eq_getElem, ThumbParts.getLsbD_bits10_0 _ _ (by omega)]
  simp

@[simp] theorem ThumbParts.bits10_0_f3 (p : ThumbParts) : p.bits10_0.extractLsb' 3 3 = p.f3 := by
  apply BitVec.eq_of_getLsbD_eq
  intro i hi
  rw [BitVec.getLsbD_extractLsb', ThumbParts.getLsbD_bits10_0 _ _ (by omega)]
  interval_cases i <;> simp

@[simp] theorem ThumbParts.bits10_0_f0 (p : ThumbParts) : p.bits10_0.extractLsb' 0 3 = p.f0 := by
  apply BitVec.eq_of_getLsbD_eq
  intro i hi
  rw [BitVec.getLsbD_extractLsb', ThumbParts.getLsbD_bits10_0 _ _ (by omega)]
  interval_cases i <;> simp

theorem ThumbParts.getLsbD_bits9_8 (p : ThumbParts) (i : Nat) (hi : i < 2) :
    p.bits9_8.getLsbD i = if i < 1 then p.b8 else p.b9 := by
  have h : p.bits9_8 = BitVec.cast (m := 2) rfl (BitVec.ofBool p.b9 ++ BitVec.ofBool p.b8) := rfl
  rw [h]
  simp only [BitVec.getLsbD_cast, BitVec.getLsbD_append, BitVec.getLsbD_ofBool]
  interval_cases i <;> simp

@[simp] theorem ThumbParts.bits9_8_join (x : BitVec 2) :
    (BitVec.ofBool x[1] ++ BitVec.ofBool x[0] : BitVec 2) = x := by
  apply BitVec.eq_of_getLsbD_eq
  intro i hi
  have h : (BitVec.ofBool x[1] ++ BitVec.ofBool x[0] : BitVec 2) =
    BitVec.cast (m := 2) rfl (BitVec.ofBool (x.getLsbD 1) ++ BitVec.ofBool (x.getLsbD 0)) := rfl
  rw [h]
  simp only [BitVec.getLsbD_cast, BitVec.getLsbD_append, BitVec.getLsbD_ofBool]
  interval_cases i <;> simp

@[simp] theorem ThumbParts.bits9_8_b9 (p : ThumbParts) : p.bits9_8[1] = p.b9 := by
  rw [← BitVec.getLsbD_eq_getElem, ThumbParts.getLsbD_bits9_8 _ _ (by omega)]
  simp

@[simp] theorem ThumbParts.bits9_8_b8 (p : ThumbParts) : p.bits9_8[0] = p.b8 := by
  rw [← BitVec.getLsbD_eq_getElem, ThumbParts.getLsbD_bits9_8 _ _ (by omega)]
  simp

@[simp] theorem ThumbParts.bits8_8_ofBool (x : BitVec 1) : BitVec.ofBool x[0] = x := by revert x; decide

@[simp] theorem ThumbParts.bits8_8_bit0 (p : ThumbParts) : p.bits8_8[0] = p.b8 := by
  unfold ThumbParts.bits8_8
  cases p.b8 <;> rfl

theorem ThumbParts.getLsbD_bits8_6 (p : ThumbParts) (i : Nat) (hi : i < 3) :
    p.bits8_6.getLsbD i = if i < 1 then p.b6 else if i < 2 then p.b7 else p.b8 := by
  have h : p.bits8_6 = BitVec.cast (m := 3) rfl (BitVec.ofBool p.b8 ++ BitVec.ofBool p.b7 ++ BitVec.ofBool p.b6) := rfl
  rw [h]
  simp only [BitVec.getLsbD_cast, BitVec.getLsbD_append, BitVec.getLsbD_ofBool]
  interval_cases i <;> simp

@[simp] theorem ThumbParts.bits8_6_join (x : BitVec 3) :
    (BitVec.ofBool x[2] ++ BitVec.ofBool x[1] ++ BitVec.ofBool x[0] : BitVec 3) = x := by
  apply BitVec.eq_of_getLsbD_eq
  intro i hi
  have h : (BitVec.ofBool x[2] ++ BitVec.ofBool x[1] ++ BitVec.ofBool x[0] : BitVec 3) =
    BitVec.cast (m := 3) rfl (BitVec.ofBool (x.getLsbD 2) ++ BitVec.ofBool (x.getLsbD 1) ++ BitVec.ofBool (x.getLsbD 0)) := rfl
  rw [h]
  simp only [BitVec.getLsbD_cast, BitVec.getLsbD_append, BitVec.getLsbD_ofBool]
  interval_cases i <;> simp

@[simp] theorem ThumbParts.bits8_6_b8 (p : ThumbParts) : p.bits8_6[2] = p.b8 := by
  rw [← BitVec.getLsbD_eq_getElem, ThumbParts.getLsbD_bits8_6 _ _ (by omega)]
  simp

@[simp] theorem ThumbParts.bits8_6_b7 (p : ThumbParts) : p.bits8_6[1] = p.b7 := by
  rw [← BitVec.getLsbD_eq_getElem, ThumbParts.getLsbD_bits8_6 _ _ (by omega)]
  simp

@[simp] theorem ThumbParts.bits8_6_b6 (p : ThumbParts) : p.bits8_6[0] = p.b6 := by
  rw [← BitVec.getLsbD_eq_getElem, ThumbParts.getLsbD_bits8_6 _ _ (by omega)]
  simp

theorem ThumbParts.getLsbD_bits8_0 (p : ThumbParts) (i : Nat) (hi : i < 9) :
    p.bits8_0.getLsbD i = if i < 3 then p.f0.getLsbD i else if i < 6 then p.f3.getLsbD (i - 3) else if i < 7 then p.b6 else if i < 8 then p.b7 else p.b8 := by
  have h : p.bits8_0 = BitVec.cast (m := 9) rfl (BitVec.ofBool p.b8 ++ BitVec.ofBool p.b7 ++ BitVec.ofBool p.b6 ++ p.f3 ++ p.f0) := rfl
  rw [h]
  simp only [BitVec.getLsbD_cast, BitVec.getLsbD_append, BitVec.getLsbD_ofBool]
  interval_cases i <;> simp

@[simp] theorem ThumbParts.bits8_0_join (x : BitVec 9) :
    (BitVec.ofBool x[8] ++ BitVec.ofBool x[7] ++ BitVec.ofBool x[6] ++ x.extractLsb' 3 3 ++ x.extractLsb' 0 3 : BitVec 9) = x := by
  apply BitVec.eq_of_getLsbD_eq
  intro i hi
  have h : (BitVec.ofBool x[8] ++ BitVec.ofBool x[7] ++ BitVec.ofBool x[6] ++ x.extractLsb' 3 3 ++ x.extractLsb' 0 3 : BitVec 9) =
    BitVec.cast (m := 9) rfl (BitVec.ofBool (x.getLsbD 8) ++ BitVec.ofBool (x.getLsbD 7) ++ BitVec.ofBool (x.getLsbD 6) ++ x.extractLsb' 3 3 ++ x.extractLsb' 0 3) := rfl
  rw [h]
  simp only [BitVec.getLsbD_cast, BitVec.getLsbD_append, BitVec.getLsbD_ofBool, BitVec.getLsbD_extractLsb']
  interval_cases i <;> simp

@[simp] theorem ThumbParts.bits8_0_b8 (p : ThumbParts) : p.bits8_0[8] = p.b8 := by
  rw [← BitVec.getLsbD_eq_getElem, ThumbParts.getLsbD_bits8_0 _ _ (by omega)]
  simp

@[simp] theorem ThumbParts.bits8_0_b7 (p : ThumbParts) : p.bits8_0[7] = p.b7 := by
  rw [← BitVec.getLsbD_eq_getElem, ThumbParts.getLsbD_bits8_0 _ _ (by omega)]
  simp

@[simp] theorem ThumbParts.bits8_0_b6 (p : ThumbParts) : p.bits8_0[6] = p.b6 := by
  rw [← BitVec.getLsbD_eq_getElem, ThumbParts.getLsbD_bits8_0 _ _ (by omega)]
  simp

@[simp] theorem ThumbParts.bits8_0_f3 (p : ThumbParts) : p.bits8_0.extractLsb' 3 3 = p.f3 := by
  apply BitVec.eq_of_getLsbD_eq
  intro i hi
  rw [BitVec.getLsbD_extractLsb', ThumbParts.getLsbD_bits8_0 _ _ (by omega)]
  interval_cases i <;> simp

@[simp] theorem ThumbParts.bits8_0_f0 (p : ThumbParts) : p.bits8_0.extractLsb' 0 3 = p.f0 := by
  apply BitVec.eq_of_getLsbD_eq
  intro i hi
  rw [BitVec.getLsbD_extractLsb', ThumbParts.getLsbD_bits8_0 _ _ (by omega)]
  interval_cases i <;> simp

theorem ThumbParts.getLsbD_bits7_0 (p : ThumbParts) (i : Nat) (hi : i < 8) :
    p.bits7_0.getLsbD i = if i < 3 then p.f0.getLsbD i else if i < 6 then p.f3.getLsbD (i - 3) else if i < 7 then p.b6 else p.b7 := by
  have h : p.bits7_0 = BitVec.cast (m := 8) rfl (BitVec.ofBool p.b7 ++ BitVec.ofBool p.b6 ++ p.f3 ++ p.f0) := rfl
  rw [h]
  simp only [BitVec.getLsbD_cast, BitVec.getLsbD_append, BitVec.getLsbD_ofBool]
  interval_cases i <;> simp

@[simp] theorem ThumbParts.bits7_0_join (x : BitVec 8) :
    (BitVec.ofBool x[7] ++ BitVec.ofBool x[6] ++ x.extractLsb' 3 3 ++ x.extractLsb' 0 3 : BitVec 8) = x := by
  apply BitVec.eq_of_getLsbD_eq
  intro i hi
  have h : (BitVec.ofBool x[7] ++ BitVec.ofBool x[6] ++ x.extractLsb' 3 3 ++ x.extractLsb' 0 3 : BitVec 8) =
    BitVec.cast (m := 8) rfl (BitVec.ofBool (x.getLsbD 7) ++ BitVec.ofBool (x.getLsbD 6) ++ x.extractLsb' 3 3 ++ x.extractLsb' 0 3) := rfl
  rw [h]
  simp only [BitVec.getLsbD_cast, BitVec.getLsbD_append, BitVec.getLsbD_ofBool, BitVec.getLsbD_extractLsb']
  interval_cases i <;> simp

@[simp] theorem ThumbParts.bits7_0_b7 (p : ThumbParts) : p.bits7_0[7] = p.b7 := by
  rw [← BitVec.getLsbD_eq_getElem, ThumbParts.getLsbD_bits7_0 _ _ (by omega)]
  simp

@[simp] theorem ThumbParts.bits7_0_b6 (p : ThumbParts) : p.bits7_0[6] = p.b6 := by
  rw [← BitVec.getLsbD_eq_getElem, ThumbParts.getLsbD_bits7_0 _ _ (by omega)]
  simp

@[simp] theorem ThumbParts.bits7_0_f3 (p : ThumbParts) : p.bits7_0.extractLsb' 3 3 = p.f3 := by
  apply BitVec.eq_of_getLsbD_eq
  intro i hi
  rw [BitVec.getLsbD_extractLsb', ThumbParts.getLsbD_bits7_0 _ _ (by omega)]
  interval_cases i <;> simp

@[simp] theorem ThumbParts.bits7_0_f0 (p : ThumbParts) : p.bits7_0.extractLsb' 0 3 = p.f0 := by
  apply BitVec.eq_of_getLsbD_eq
  intro i hi
  rw [BitVec.getLsbD_extractLsb', ThumbParts.getLsbD_bits7_0 _ _ (by omega)]
  interval_cases i <;> simp

theorem ThumbParts.getLsbD_bits6_0 (p : ThumbParts) (i : Nat) (hi : i < 7) :
    p.bits6_0.getLsbD i = if i < 3 then p.f0.getLsbD i else if i < 6 then p.f3.getLsbD (i - 3) else p.b6 := by
  have h : p.bits6_0 = BitVec.cast (m := 7) rfl (BitVec.ofBool p.b6 ++ p.f3 ++ p.f0) := rfl
  rw [h]
  simp only [BitVec.getLsbD_cast, BitVec.getLsbD_append, BitVec.getLsbD_ofBool]
  interval_cases i <;> simp

@[simp] theorem ThumbParts.bits6_0_join (x : BitVec 7) :
    (BitVec.ofBool x[6] ++ x.extractLsb' 3 3 ++ x.extractLsb' 0 3 : BitVec 7) = x := by
  apply BitVec.eq_of_getLsbD_eq
  intro i hi
  have h : (BitVec.ofBool x[6] ++ x.extractLsb' 3 3 ++ x.extractLsb' 0 3 : BitVec 7) =
    BitVec.cast (m := 7) rfl (BitVec.ofBool (x.getLsbD 6) ++ x.extractLsb' 3 3 ++ x.extractLsb' 0 3) := rfl
  rw [h]
  simp only [BitVec.getLsbD_cast, BitVec.getLsbD_append, BitVec.getLsbD_ofBool, BitVec.getLsbD_extractLsb']
  interval_cases i <;> simp

@[simp] theorem ThumbParts.bits6_0_b6 (p : ThumbParts) : p.bits6_0[6] = p.b6 := by
  rw [← BitVec.getLsbD_eq_getElem, ThumbParts.getLsbD_bits6_0 _ _ (by omega)]
  simp

@[simp] theorem ThumbParts.bits6_0_f3 (p : ThumbParts) : p.bits6_0.extractLsb' 3 3 = p.f3 := by
  apply BitVec.eq_of_getLsbD_eq
  intro i hi
  rw [BitVec.getLsbD_extractLsb', ThumbParts.getLsbD_bits6_0 _ _ (by omega)]
  interval_cases i <;> simp

@[simp] theorem ThumbParts.bits6_0_f0 (p : ThumbParts) : p.bits6_0.extractLsb' 0 3 = p.f0 := by
  apply BitVec.eq_of_getLsbD_eq
  intro i hi
  rw [BitVec.getLsbD_extractLsb', ThumbParts.getLsbD_bits6_0 _ _ (by omega)]
  interval_cases i <;> simp

end Sys2Proof
end

