-- ==== Sys2Proof/Laws/Keeps.lean ====
section
/-! SUPPORT. What every operation and every meaning keeps: the host's state, `last_fetch_addr` unless R15 is written
or an exception entered, the canonical form of memory, and that the budget never grows. -/

namespace Sys2Proof.Machine

open Sys2Proof

/-- What no instruction undoes. -/
structure Keeps (s t : State) : Prop where
  host : SameHostState s t
  fetch : t.lastFetch = s.lastFetch ∨ t.lastFetch = none
  budget : t.cycleBudget ≤ s.cycleBudget
  mem : Memory.WF s.mem → Memory.WF t.mem

/-- Every next state of a result keeps. -/
def KeepsAll (s : State) (r : Result) : Prop := ∀ t, r = .next t → Keeps s t

namespace Keeps

theorem sameHost_refl (s : State) : SameHostState s s := ⟨rfl, rfl, rfl, rfl, rfl, rfl⟩

theorem sameHost_trans {s t u : State} (h : SameHostState s t) (k : SameHostState t u) : SameHostState s u := by
  obtain ⟨a1, a2, a3, a4, a5, a6⟩ := h
  obtain ⟨b1, b2, b3, b4, b5, b6⟩ := k
  exact ⟨b1.trans a1, b2.trans a2, b3.trans a3, b4.trans a4, b5.trans a5, b6.trans a6⟩

theorem refl (s : State) : Keeps s s := ⟨sameHost_refl s, .inl rfl, Int.le_refl _, id⟩

theorem trans {s t u : State} (h : Keeps s t) (k : Keeps t u) : Keeps s u :=
  ⟨sameHost_trans h.host k.host, k.fetch.elim (fun e => h.fetch.imp e.trans e.trans) .inr,
    Int.le_trans k.budget h.budget, k.mem ∘ h.mem⟩

theorem charge (s : State) (n : Nat) : Keeps s (charge s n) :=
  ⟨sameHost_refl s, .inl rfl, by simp, id⟩

theorem noteAccess (s : State) (x : BusAccess) : Keeps s (noteAccess s x) :=
  ⟨sameHost_refl s, .inl rfl, by simp, id⟩

theorem noteLoad (s : State) (q : Bool) (k : LoadKind) (a : Word) : Keeps s (noteLoad s q k a) := noteAccess s _

theorem noteBlockLoads (s : State) (q : Bool) (a : Word) (rs : List Reg) : Keeps s (noteBlockLoads s q a rs) := by
  induction rs generalizing s q a with
  | nil => exact refl s
  | cons r rest ih => exact (noteLoad s q .word _).trans (ih _ _ _)

theorem drew (s : State) : Keeps s (drew s) := ⟨sameHost_refl s, .inl rfl, Int.le_refl _, id⟩

theorem refill (s : State) : Keeps s (refill s) := charge s _

theorem advance (s : State) : Keeps s (advance s) := ⟨sameHost_refl s, .inl rfl, Int.le_refl _, id⟩

theorem setCpsr (s : State) (p : Psr) : Keeps s { s with cpsr := p } :=
  ⟨sameHost_refl s, .inl rfl, Int.le_refl _, id⟩

theorem setHazard (s : State) (b : Bool) : Keeps s { s with userBankHazard := b } :=
  ⟨sameHost_refl s, .inl rfl, Int.le_refl _, id⟩

theorem setBus (s : State) (l : List BusAccess) : Keeps s { s with bus := l } :=
  ⟨sameHost_refl s, .inl rfl, Int.le_refl _, id⟩

theorem setMem (s : State) (m : Memory) (h : Memory.WF s.mem → Memory.WF m) : Keeps s { s with mem := m } :=
  ⟨sameHost_refl s, .inl rfl, Int.le_refl _, h⟩

theorem writePc (s : State) (v : Word) : Keeps s (writePc s v) :=
  ⟨sameHost_refl s, .inr rfl, by simp [Machine.writePc, Machine.refill], id⟩

theorem setSpsr (s : State) (n : SpsrName) (v : Word) : Keeps s (setSpsr s n v) := by
  cases n <;> exact ⟨sameHost_refl s, .inl rfl, Int.le_refl _, id⟩

theorem writePhys (s : State) (p : PhysReg) (v : Word) : Keeps s (writePhys s p v) := by
  cases p <;> exact ⟨sameHost_refl s, .inl rfl, Int.le_refl _, id⟩

theorem setReg (s : State) (r : Reg) (v : Word) : Keeps s (setReg s r v) := writePhys s _ v

theorem setRegs (s : State) (l : List (Reg × Word)) : Keeps s (setRegs s l) :=
  ⟨⟨by simp, by simp, by simp, by simp, by simp, by simp⟩, .inl (by simp), by simp, by simp⟩

theorem setUsrRegs (s : State) (l : List (Reg × Word)) : Keeps s (setUsrRegs s l) :=
  ⟨⟨by simp, by simp, by simp, by simp, by simp, by simp⟩, .inl (by simp), by simp, by simp⟩

theorem enterException (k : ExceptionKind) (ret : Word) (s : State) : Keeps s (enterException k ret s) := by
  refine ⟨⟨by simp, by simp, by simp, by simp, by simp, by simp⟩, .inr (by simp), ?_, by simp⟩
  have h : (Machine.enterException k ret s).cycleBudget
      = s.cycleBudget - (accessCycles s.accessTable true true (k.vector + 4) : Nat) := by cases k <;> rfl
  rw [h]
  omega

theorem store {s t : State} {q : Bool} {w : Width} {a v : Word} (h : store s q w a v = .next t) : Keeps s t := by
  obtain ⟨-, x, rfl⟩ := store_eq_next h
  exact (setMem s _ (busWrite_wf _ _ _ _)).trans (noteAccess _ x)

theorem storeBlock {s t : State} {q : Bool} {a : Word} {l : List Word} (h : storeBlock s q a l = .next t) :
    Keeps s t := by
  induction l generalizing s q a with
  | nil => cases h; exact refl _
  | cons v rest ih =>
    obtain ⟨u, hu, h⟩ := andThen_eq_next.1 h
    exact (store hu).trans (ih h)

theorem writeCpsr {s t : State} {v : Word} {m : BitVec 4} (h : writeCpsr s v m = .next t) : Keeps s t := by
  obtain ⟨p, rfl, -⟩ := writeCpsr_eq_next h
  exact setCpsr s p

theorem writeSpsr {s t : State} {v : Word} {m : BitVec 4} (h : writeSpsr s v m = .next t) : Keeps s t := by
  obtain ⟨n, -, rfl⟩ := writeSpsr_eq_next h
  exact setSpsr s n _

theorem restoreCpsr {s t : State} (h : restoreCpsr s = .next t) : Keeps s t := by
  obtain ⟨n, m, -, -, rfl⟩ := restoreCpsr_eq_next h
  exact setCpsr s _

end Keeps

/-! ## Results -/

theorem KeepsAll.next {s t : State} (h : Keeps s t) : KeepsAll s (.next t) := fun u e => by cases e; exact h

theorem KeepsAll.fault (s : State) (f : Fault) : KeepsAll s (.fault f) := fun u e => by cases e

theorem KeepsAll.faultIf {s : State} {b : Bool} {c : UnpredictableCase} {k : Result} (h : KeepsAll s k) :
    KeepsAll s (faultIf b c k) := fun t e => h t (faultIf_eq_next.1 e).2

theorem KeepsAll.whenCond {s : State} {c : Cond} {k : Result} (h : KeepsAll s k) : KeepsAll s (whenCond c s k) := by
  intro t e
  rcases whenCond_eq_next e with ⟨-, e⟩ | ⟨-, rfl⟩
  · exact h t e
  · exact Keeps.advance s

theorem KeepsAll.andThen {s : State} {r : Result} {k : State → Result} (hr : KeepsAll s r)
    (hk : ∀ u, KeepsAll u (k u)) : KeepsAll s (andThen r k) := by
  intro t e
  obtain ⟨u, hu, e⟩ := andThen_eq_next.1 e
  exact (hr u hu).trans (hk u t e)

theorem KeepsAll.from {s u : State} {r : Result} (h : Keeps s u) (k : KeepsAll u r) : KeepsAll s r :=
  fun t e => h.trans (k t e)

end Sys2Proof.Machine
end

