-- ==== Sys2Proof/Laws/PerInstr.lean ====
section
/-! SUPPORT. Per instruction: the word the encoder gives is in the instruction's own row of the opcode table. -/

namespace Sys2Proof.Laws.Row

open Sys2Proof

/-- A row of spec/opcode_table.json: its mask and its match word, of an ARM word or of a Thumb halfword. -/
inductive TableRow where
  | arm (mask bits : Word)
  | thumb (mask bits : Half)
  deriving DecidableEq, Repr

/-- A code matches a row: its bits under the mask are the match bits. -/
def Matches (x : Code) (r : TableRow) : Prop :=
  match x, r with
  | .arm w, .arm mask bits => w &&& mask = bits
  | .thumb h, .thumb mask bits => h &&& mask = bits
  | .arm _, .thumb _ _ => False
  | .thumb _, .arm _ _ => False

/-- The row of each instruction. -/
def rowOf : Instr → TableRow
  | .andImmShift .. => .arm 0x0FE00010 0x00000000
  | .eorImmShift .. => .arm 0x0FE00010 0x00200000
  | .subImmShift .. => .arm 0x0FE00010 0x00400000
  | .rsbImmShift .. => .arm 0x0FE00010 0x00600000
  | .addImmShift .. => .arm 0x0FE00010 0x00800000
  | .adcImmShift .. => .arm 0x0FE00010 0x00A00000
  | .sbcImmShift .. => .arm 0x0FE00010 0x00C00000
  | .rscImmShift .. => .arm 0x0FE00010 0x00E00000
  | .mrs .. => .arm 0x0FB000F0 0x01000000
  | .msrReg .. => .arm 0x0FB000F0 0x01200000
  | .undefMisc01000020 .. => .arm 0x0F9000F0 0x01000020
  | .undefMisc01000040 .. => .arm 0x0F9000D0 0x01000040
  | .undefMisc01000080 .. => .arm 0x0F900090 0x01000080
  | .tstImmShift .. => .arm 0x0FF00010 0x01100000
  | .teqImmShift .. => .arm 0x0FF00010 0x01300000
  | .cmpImmShift .. => .arm 0x0FF00010 0x01500000
  | .cmnImmShift .. => .arm 0x0FF00010 0x01700000
  | .orrImmShift .. => .arm 0x0FE00010 0x01800000
  | .movImmShift .. => .arm 0x0FE00010 0x01A00000
  | .bicImmShift .. => .arm 0x0FE00010 0x01C00000
  | .mvnImmShift .. => .arm 0x0FE00010 0x01E00000
  | .andRegShift .. => .arm 0x0FE00090 0x00000010
  | .eorRegShift .. => .arm 0x0FE00090 0x00200010
  | .subRegShift .. => .arm 0x0FE00090 0x00400010
  | .rsbRegShift .. => .arm 0x0FE00090 0x00600010
  | .addRegShift .. => .arm 0x0FE00090 0x00800010
  | .adcRegShift .. => .arm 0x0FE00090 0x00A00010
  | .sbcRegShift .. => .arm 0x0FE00090 0x00C00010
  | .rscRegShift .. => .arm 0x0FE00090 0x00E00010
  | .undefMisc01000010 .. => .arm 0x0FF00090 0x01000010
  | .tstRegShift .. => .arm 0x0FF00090 0x01100010
  | .bx .. => .arm 0x0FF000F0 0x01200010
  | .undefMisc01200030 .. => .arm 0x0FF000F0 0x01200030
  | .undefMisc01200050 .. => .arm 0x0FF000D0 0x01200050
  | .teqRegShift .. => .arm 0x0FF00090 0x01300010
  | .undefMisc01400010 .. => .arm 0x0FD00090 0x01400010
  | .cmpRegShift .. => .arm 0x0FF00090 0x01500010
  | .cmnRegShift .. => .arm 0x0FF00090 0x01700010
  | .orrRegShift .. => .arm 0x0FE00090 0x01800010
  | .movRegShift .. => .arm 0x0FE00090 0x01A00010
  | .bicRegShift .. => .arm 0x0FE00090 0x01C00010
  | .mvnRegShift .. => .arm 0x0FE00090 0x01E00010
  | .mul .. => .arm 0x0FE000F0 0x00000090
  | .mla .. => .arm 0x0FE000F0 0x00200090
  | .undefMulSwap00400090 .. => .arm 0x0FC000F0 0x00400090
  | .umull .. => .arm 0x0FE000F0 0x00800090
  | .umlal .. => .arm 0x0FE000F0 0x00A00090
  | .smull .. => .arm 0x0FE000F0 0x00C00090
  | .smlal .. => .arm 0x0FE000F0 0x00E00090
  | .swp .. => .arm 0x0FF000F0 0x01000090
  | .swpb .. => .arm 0x0FF000F0 0x01400090
  | .undefMulSwap01100090 .. => .arm 0x0FB000F0 0x01100090
  | .undefMulSwap01200090 .. => .arm 0x0FA000F0 0x01200090
  | .undefMulSwap01800090 .. => .arm 0x0F8000F0 0x01800090
  | .strhReg .. => .arm 0x0E5000F0 0x000000B0
  | .ldrhReg .. => .arm 0x0E5000F0 0x001000B0
  | .strhImm .. => .arm 0x0E5000F0 0x004000B0
  | .ldrhImm .. => .arm 0x0E5000F0 0x005000B0
  | .undefHalfStore .. => .arm 0x0E1000D0 0x000000D0
  | .ldrsbReg .. => .arm 0x0E5000F0 0x001000D0
  | .ldrshReg .. => .arm 0x0E5000F0 0x001000F0
  | .ldrsbImm .. => .arm 0x0E5000F0 0x005000D0
  | .ldrshImm .. => .arm 0x0E5000F0 0x005000F0
  | .andImm .. => .arm 0x0FE00000 0x02000000
  | .eorImm .. => .arm 0x0FE00000 0x02200000
  | .subImm .. => .arm 0x0FE00000 0x02400000
  | .rsbImm .. => .arm 0x0FE00000 0x02600000
  | .addImm .. => .arm 0x0FE00000 0x02800000
  | .adcImm .. => .arm 0x0FE00000 0x02A00000
  | .sbcImm .. => .arm 0x0FE00000 0x02C00000
  | .rscImm .. => .arm 0x0FE00000 0x02E00000
  | .undefTstImm .. => .arm 0x0FB00000 0x03000000
  | .tstImm .. => .arm 0x0FF00000 0x03100000
  | .cmpImm .. => .arm 0x0FF00000 0x03500000
  | .msrImm .. => .arm 0x0FB00000 0x03200000
  | .teqImm .. => .arm 0x0FF00000 0x03300000
  | .cmnImm .. => .arm 0x0FF00000 0x03700000
  | .orrImm .. => .arm 0x0FE00000 0x03800000
  | .movImm .. => .arm 0x0FE00000 0x03A00000
  | .bicImm .. => .arm 0x0FE00000 0x03C00000
  | .mvnImm .. => .arm 0x0FE00000 0x03E00000
  | .strImmPost .. => .arm 0x0F700000 0x04000000
  | .ldrImmPost .. => .arm 0x0F700000 0x04100000
  | .strtImm .. => .arm 0x0F700000 0x04200000
  | .ldrtImm .. => .arm 0x0F700000 0x04300000
  | .strbImmPost .. => .arm 0x0F700000 0x04400000
  | .ldrbImmPost .. => .arm 0x0F700000 0x04500000
  | .strbtImm .. => .arm 0x0F700000 0x04600000
  | .ldrbtImm .. => .arm 0x0F700000 0x04700000
  | .strImmPre .. => .arm 0x0F500000 0x05000000
  | .ldrImmPre .. => .arm 0x0F500000 0x05100000
  | .strbImmPre .. => .arm 0x0F500000 0x05400000
  | .ldrbImmPre .. => .arm 0x0F500000 0x05500000
  | .strRegPost .. => .arm 0x0F700010 0x06000000
  | .ldrRegPost .. => .arm 0x0F700010 0x06100000
  | .strtReg .. => .arm 0x0F700010 0x06200000
  | .ldrtReg .. => .arm 0x0F700010 0x06300000
  | .strbRegPost .. => .arm 0x0F700010 0x06400000
  | .ldrbRegPost .. => .arm 0x0F700010 0x06500000
  | .strbtReg .. => .arm 0x0F700010 0x06600000
  | .ldrbtReg .. => .arm 0x0F700010 0x06700000
  | .strRegPre .. => .arm 0x0F500010 0x07000000
  | .ldrRegPre .. => .arm 0x0F500010 0x07100000
  | .strbRegPre .. => .arm 0x0F500010 0x07400000
  | .ldrbRegPre .. => .arm 0x0F500010 0x07500000
  | .undefArch .. => .arm 0x0E000010 0x06000010
  | .stm .. => .arm 0x0E100000 0x08000000
  | .ldm .. => .arm 0x0E100000 0x08100000
  | .b .. => .arm 0x0F000000 0x0A000000
  | .bl .. => .arm 0x0F000000 0x0B000000
  | .stc .. => .arm 0x0E100000 0x0C000000
  | .ldc .. => .arm 0x0E100000 0x0C100000
  | .cdp .. => .arm 0x0F000010 0x0E000000
  | .mcr .. => .arm 0x0F100010 0x0E000010
  | .mrc .. => .arm 0x0F100010 0x0E100010
  | .swi .. => .arm 0x0F000000 0x0F000000
  | .tLslImm .. => .thumb 0xF800 0x0000
  | .tLsrImm .. => .thumb 0xF800 0x0800
  | .tAsrImm .. => .thumb 0xF800 0x1000
  | .tAddReg .. => .thumb 0xFE00 0x1800
  | .tSubReg .. => .thumb 0xFE00 0x1A00
  | .tAddImm3 .. => .thumb 0xFE00 0x1C00
  | .tSubImm3 .. => .thumb 0xFE00 0x1E00
  | .tMovImm .. => .thumb 0xF800 0x2000
  | .tCmpImm .. => .thumb 0xF800 0x2800
  | .tAddImm8 .. => .thumb 0xF800 0x3000
  | .tSubImm8 .. => .thumb 0xF800 0x3800
  | .tAnd .. => .thumb 0xFFC0 0x4000
  | .tEor .. => .thumb 0xFFC0 0x4040
  | .tLslReg .. => .thumb 0xFFC0 0x4080
  | .tLsrReg .. => .thumb 0xFFC0 0x40C0
  | .tAsrReg .. => .thumb 0xFFC0 0x4100
  | .tAdc .. => .thumb 0xFFC0 0x4140
  | .tSbc .. => .thumb 0xFFC0 0x4180
  | .tRorReg .. => .thumb 0xFFC0 0x41C0
  | .tTst .. => .thumb 0xFFC0 0x4200
  | .tNeg .. => .thumb 0xFFC0 0x4240
  | .tCmpReg .. => .thumb 0xFFC0 0x4280
  | .tCmn .. => .thumb 0xFFC0 0x42C0
  | .tOrr .. => .thumb 0xFFC0 0x4300
  | .tMul .. => .thumb 0xFFC0 0x4340
  | .tBic .. => .thumb 0xFFC0 0x4380
  | .tMvn .. => .thumb 0xFFC0 0x43C0
  | .tAddHi .. => .thumb 0xFF00 0x4400
  | .tCmpHi .. => .thumb 0xFF00 0x4500
  | .tMovHi .. => .thumb 0xFF00 0x4600
  | .tBx .. => .thumb 0xFF00 0x4700
  | .tLdrPc .. => .thumb 0xF800 0x4800
  | .tStrReg .. => .thumb 0xFE00 0x5000
  | .tStrhReg .. => .thumb 0xFE00 0x5200
  | .tStrbReg .. => .thumb 0xFE00 0x5400
  | .tLdrsbReg .. => .thumb 0xFE00 0x5600
  | .tLdrReg .. => .thumb 0xFE00 0x5800
  | .tLdrhReg .. => .thumb 0xFE00 0x5A00
  | .tLdrbReg .. => .thumb 0xFE00 0x5C00
  | .tLdrshReg .. => .thumb 0xFE00 0x5E00
  | .tStrImm .. => .thumb 0xF800 0x6000
  | .tLdrImm .. => .thumb 0xF800 0x6800
  | .tStrbImm .. => .thumb 0xF800 0x7000
  | .tLdrbImm .. => .thumb 0xF800 0x7800
  | .tStrhImm .. => .thumb 0xF800 0x8000
  | .tLdrhImm .. => .thumb 0xF800 0x8800
  | .tStrSp .. => .thumb 0xF800 0x9000
  | .tLdrSp .. => .thumb 0xF800 0x9800
  | .tAddPc .. => .thumb 0xF800 0xA000
  | .tAddSp .. => .thumb 0xF800 0xA800
  | .tSpAdd .. => .thumb 0xFF80 0xB000
  | .tSpSub .. => .thumb 0xFF80 0xB080
  | .tUndefB1 .. => .thumb 0xFF00 0xB100
  | .tPush .. => .thumb 0xFE00 0xB400
  | .tUndefB8 .. => .thumb 0xFE00 0xB800
  | .tPop .. => .thumb 0xFE00 0xBC00
  | .tUndefB2 .. => .thumb 0xF200 0xB200
  | .tStmia .. => .thumb 0xF800 0xC000
  | .tLdmia .. => .thumb 0xF800 0xC800
  | .tBcondD0 .. => .thumb 0xF800 0xD000
  | .tBcondD8 .. => .thumb 0xFC00 0xD800
  | .tBcondDC .. => .thumb 0xFE00 0xDC00
  | .tUndefDE .. => .thumb 0xFF00 0xDE00
  | .tSwi .. => .thumb 0xFF00 0xDF00
  | .tB .. => .thumb 0xF800 0xE000
  | .tUndefE8 .. => .thumb 0xF800 0xE800
  | .tBlFirst .. => .thumb 0xF800 0xF000
  | .tBlSecond .. => .thumb 0xF800 0xF800

/-- The encoder's word of an instruction matches the instruction's row. -/
def Statement (i : Instr) : Prop := Matches (encode i) (rowOf i)

/-- An ARM instruction, from its parts. -/
theorem arm_matches (p : ArmParts) (mask bits : Word) (h : p.mask (ArmParts.ofWord mask) = ArmParts.ofWord bits) :
    Matches (.arm p.toWord) (.arm mask bits) := ArmParts.toWord_and_eq p mask bits h

/-- A Thumb instruction, from its parts. -/
theorem thumb_matches (p : ThumbParts) (mask bits : Half) (h : p.mask (ThumbParts.ofHalf mask) = ThumbParts.ofHalf bits) :
    Matches (.thumb p.toHalf) (.thumb mask bits) := ThumbParts.toHalf_and_eq p mask bits h

theorem andImmShift (c : Cond) (s : Bool) (rn : Reg) (rd : Reg) (amt : BitVec 5) (k : ShiftKind) (rm : Reg) :
    Statement (.andImmShift c s rn rd amt k rm) :=
  arm_matches _ _ _ (by simp [ArmParts.mask, ArmParts.ofWord])

theorem eorImmShift (c : Cond) (s : Bool) (rn : Reg) (rd : Reg) (amt : BitVec 5) (k : ShiftKind) (rm : Reg) :
    Statement (.eorImmShift c s rn rd amt k rm) :=
  arm_matches _ _ _ (by simp [ArmParts.mask, ArmParts.ofWord])

theorem subImmShift (c : Cond) (s : Bool) (rn : Reg) (rd : Reg) (amt : BitVec 5) (k : ShiftKind) (rm : Reg) :
    Statement (.subImmShift c s rn rd amt k rm) :=
  arm_matches _ _ _ (by simp [ArmParts.mask, ArmParts.ofWord])

theorem rsbImmShift (c : Cond) (s : Bool) (rn : Reg) (rd : Reg) (amt : BitVec 5) (k : ShiftKind) (rm : Reg) :
    Statement (.rsbImmShift c s rn rd amt k rm) :=
  arm_matches _ _ _ (by simp [ArmParts.mask, ArmParts.ofWord])

theorem addImmShift (c : Cond) (s : Bool) (rn : Reg) (rd : Reg) (amt : BitVec 5) (k : ShiftKind) (rm : Reg) :
    Statement (.addImmShift c s rn rd amt k rm) :=
  arm_matches _ _ _ (by simp [ArmParts.mask, ArmParts.ofWord])

theorem adcImmShift (c : Cond) (s : Bool) (rn : Reg) (rd : Reg) (amt : BitVec 5) (k : ShiftKind) (rm : Reg) :
    Statement (.adcImmShift c s rn rd amt k rm) :=
  arm_matches _ _ _ (by simp [ArmParts.mask, ArmParts.ofWord])

theorem sbcImmShift (c : Cond) (s : Bool) (rn : Reg) (rd : Reg) (amt : BitVec 5) (k : ShiftKind) (rm : Reg) :
    Statement (.sbcImmShift c s rn rd amt k rm) :=
  arm_matches _ _ _ (by simp [ArmParts.mask, ArmParts.ofWord])

theorem rscImmShift (c : Cond) (s : Bool) (rn : Reg) (rd : Reg) (amt : BitVec 5) (k : ShiftKind) (rm : Reg) :
    Statement (.rscImmShift c s rn rd amt k rm) :=
  arm_matches _ _ _ (by simp [ArmParts.mask, ArmParts.ofWord])

theorem mrs (c : Cond) (r : Bool) (sbo : BitVec 4) (rd : Reg) (sbzHi : BitVec 4) (sbzLo : BitVec 4) :
    Statement (.mrs c r sbo rd sbzHi sbzLo) :=
  arm_matches _ _ _ (by simp [ArmParts.mask, ArmParts.ofWord])

theorem msrReg (c : Cond) (r : Bool) (fm : BitVec 4) (sbo : BitVec 4) (sbz : BitVec 4) (rm : Reg) :
    Statement (.msrReg c r fm sbo sbz rm) :=
  arm_matches _ _ _ (by simp [ArmParts.mask, ArmParts.ofWord])

theorem undefMisc01000020 (c : Cond) (b22 : Bool) (b21 : Bool) (f16 : BitVec 4) (f12 : BitVec 4) (f8 : BitVec 4) (f0 : BitVec 4) :
    Statement (.undefMisc01000020 c b22 b21 f16 f12 f8 f0) :=
  arm_matches _ _ _ (by simp [ArmParts.mask, ArmParts.ofWord])

theorem undefMisc01000040 (c : Cond) (b22 : Bool) (b21 : Bool) (f16 : BitVec 4) (f12 : BitVec 4) (f8 : BitVec 4) (b5 : Bool) (f0 : BitVec 4) :
    Statement (.undefMisc01000040 c b22 b21 f16 f12 f8 b5 f0) :=
  arm_matches _ _ _ (by simp [ArmParts.mask, ArmParts.ofWord])

theorem undefMisc01000080 (c : Cond) (b22 : Bool) (b21 : Bool) (f16 : BitVec 4) (f12 : BitVec 4) (f8 : BitVec 4) (b6 : Bool) (b5 : Bool) (f0 : BitVec 4) :
    Statement (.undefMisc01000080 c b22 b21 f16 f12 f8 b6 b5 f0) :=
  arm_matches _ _ _ (by simp [ArmParts.mask, ArmParts.ofWord])

theorem tstImmShift (c : Cond) (rn : Reg) (rd : Reg) (amt : BitVec 5) (k : ShiftKind) (rm : Reg) :
    Statement (.tstImmShift c rn rd amt k rm) :=
  arm_matches _ _ _ (by simp [ArmParts.mask, ArmParts.ofWord])

theorem teqImmShift (c : Cond) (rn : Reg) (rd : Reg) (amt : BitVec 5) (k : ShiftKind) (rm : Reg) :
    Statement (.teqImmShift c rn rd amt k rm) :=
  arm_matches _ _ _ (by simp [ArmParts.mask, ArmParts.ofWord])

theorem cmpImmShift (c : Cond) (rn : Reg) (rd : Reg) (amt : BitVec 5) (k : ShiftKind) (rm : Reg) :
    Statement (.cmpImmShift c rn rd amt k rm) :=
  arm_matches _ _ _ (by simp [ArmParts.mask, ArmParts.ofWord])

theorem cmnImmShift (c : Cond) (rn : Reg) (rd : Reg) (amt : BitVec 5) (k : ShiftKind) (rm : Reg) :
    Statement (.cmnImmShift c rn rd amt k rm) :=
  arm_matches _ _ _ (by simp [ArmParts.mask, ArmParts.ofWord])

theorem orrImmShift (c : Cond) (s : Bool) (rn : Reg) (rd : Reg) (amt : BitVec 5) (k : ShiftKind) (rm : Reg) :
    Statement (.orrImmShift c s rn rd amt k rm) :=
  arm_matches _ _ _ (by simp [ArmParts.mask, ArmParts.ofWord])

theorem movImmShift (c : Cond) (s : Bool) (rn : Reg) (rd : Reg) (amt : BitVec 5) (k : ShiftKind) (rm : Reg) :
    Statement (.movImmShift c s rn rd amt k rm) :=
  arm_matches _ _ _ (by simp [ArmParts.mask, ArmParts.ofWord])

theorem bicImmShift (c : Cond) (s : Bool) (rn : Reg) (rd : Reg) (amt : BitVec 5) (k : ShiftKind) (rm : Reg) :
    Statement (.bicImmShift c s rn rd amt k rm) :=
  arm_matches _ _ _ (by simp [ArmParts.mask, ArmParts.ofWord])

theorem mvnImmShift (c : Cond) (s : Bool) (rn : Reg) (rd : Reg) (amt : BitVec 5) (k : ShiftKind) (rm : Reg) :
    Statement (.mvnImmShift c s rn rd amt k rm) :=
  arm_matches _ _ _ (by simp [ArmParts.mask, ArmParts.ofWord])

theorem andRegShift (c : Cond) (s : Bool) (rn : Reg) (rd : Reg) (rs : Reg) (k : ShiftKind) (rm : Reg) :
    Statement (.andRegShift c s rn rd rs k rm) :=
  arm_matches _ _ _ (by simp [ArmParts.mask, ArmParts.ofWord])

theorem eorRegShift (c : Cond) (s : Bool) (rn : Reg) (rd : Reg) (rs : Reg) (k : ShiftKind) (rm : Reg) :
    Statement (.eorRegShift c s rn rd rs k rm) :=
  arm_matches _ _ _ (by simp [ArmParts.mask, ArmParts.ofWord])

theorem subRegShift (c : Cond) (s : Bool) (rn : Reg) (rd : Reg) (rs : Reg) (k : ShiftKind) (rm : Reg) :
    Statement (.subRegShift c s rn rd rs k rm) :=
  arm_matches _ _ _ (by simp [ArmParts.mask, ArmParts.ofWord])

theorem rsbRegShift (c : Cond) (s : Bool) (rn : Reg) (rd : Reg) (rs : Reg) (k : ShiftKind) (rm : Reg) :
    Statement (.rsbRegShift c s rn rd rs k rm) :=
  arm_matches _ _ _ (by simp [ArmParts.mask, ArmParts.ofWord])

theorem addRegShift (c : Cond) (s : Bool) (rn : Reg) (rd : Reg) (rs : Reg) (k : ShiftKind) (rm : Reg) :
    Statement (.addRegShift c s rn rd rs k rm) :=
  arm_matches _ _ _ (by simp [ArmParts.mask, ArmParts.ofWord])

theorem adcRegShift (c : Cond) (s : Bool) (rn : Reg) (rd : Reg) (rs : Reg) (k : ShiftKind) (rm : Reg) :
    Statement (.adcRegShift c s rn rd rs k rm) :=
  arm_matches _ _ _ (by simp [ArmParts.mask, ArmParts.ofWord])

theorem sbcRegShift (c : Cond) (s : Bool) (rn : Reg) (rd : Reg) (rs : Reg) (k : ShiftKind) (rm : Reg) :
    Statement (.sbcRegShift c s rn rd rs k rm) :=
  arm_matches _ _ _ (by simp [ArmParts.mask, ArmParts.ofWord])

theorem rscRegShift (c : Cond) (s : Bool) (rn : Reg) (rd : Reg) (rs : Reg) (k : ShiftKind) (rm : Reg) :
    Statement (.rscRegShift c s rn rd rs k rm) :=
  arm_matches _ _ _ (by simp [ArmParts.mask, ArmParts.ofWord])

theorem undefMisc01000010 (c : Cond) (f16 : BitVec 4) (f12 : BitVec 4) (f8 : BitVec 4) (b6 : Bool) (b5 : Bool) (f0 : BitVec 4) :
    Statement (.undefMisc01000010 c f16 f12 f8 b6 b5 f0) :=
  arm_matches _ _ _ (by simp [ArmParts.mask, ArmParts.ofWord])

theorem tstRegShift (c : Cond) (rn : Reg) (rd : Reg) (rs : Reg) (k : ShiftKind) (rm : Reg) :
    Statement (.tstRegShift c rn rd rs k rm) :=
  arm_matches _ _ _ (by simp [ArmParts.mask, ArmParts.ofWord])

theorem bx (c : Cond) (sbo : BitVec 12) (rm : Reg) :
    Statement (.bx c sbo rm) :=
  arm_matches _ _ _ (by simp [ArmParts.mask, ArmParts.ofWord])

theorem undefMisc01200030 (c : Cond) (f16 : BitVec 4) (f12 : BitVec 4) (f8 : BitVec 4) (f0 : BitVec 4) :
    Statement (.undefMisc01200030 c f16 f12 f8 f0) :=
  arm_matches _ _ _ (by simp [ArmParts.mask, ArmParts.ofWord])

theorem undefMisc01200050 (c : Cond) (f16 : BitVec 4) (f12 : BitVec 4) (f8 : BitVec 4) (b5 : Bool) (f0 : BitVec 4) :
    Statement (.undefMisc01200050 c f16 f12 f8 b5 f0) :=
  arm_matches _ _ _ (by simp [ArmParts.mask, ArmParts.ofWord])

theorem teqRegShift (c : Cond) (rn : Reg) (rd : Reg) (rs : Reg) (k : ShiftKind) (rm : Reg) :
    Statement (.teqRegShift c rn rd rs k rm) :=
  arm_matches _ _ _ (by simp [ArmParts.mask, ArmParts.ofWord])

theorem undefMisc01400010 (c : Cond) (b21 : Bool) (f16 : BitVec 4) (f12 : BitVec 4) (f8 : BitVec 4) (b6 : Bool) (b5 : Bool) (f0 : BitVec 4) :
    Statement (.undefMisc01400010 c b21 f16 f12 f8 b6 b5 f0) :=
  arm_matches _ _ _ (by simp [ArmParts.mask, ArmParts.ofWord])

theorem cmpRegShift (c : Cond) (rn : Reg) (rd : Reg) (rs : Reg) (k : ShiftKind) (rm : Reg) :
    Statement (.cmpRegShift c rn rd rs k rm) :=
  arm_matches _ _ _ (by simp [ArmParts.mask, ArmParts.ofWord])

theorem cmnRegShift (c : Cond) (rn : Reg) (rd : Reg) (rs : Reg) (k : ShiftKind) (rm : Reg) :
    Statement (.cmnRegShift c rn rd rs k rm) :=
  arm_matches _ _ _ (by simp [ArmParts.mask, ArmParts.ofWord])

theorem orrRegShift (c : Cond) (s : Bool) (rn : Reg) (rd : Reg) (rs : Reg) (k : ShiftKind) (rm : Reg) :
    Statement (.orrRegShift c s rn rd rs k rm) :=
  arm_matches _ _ _ (by simp [ArmParts.mask, ArmParts.ofWord])

theorem movRegShift (c : Cond) (s : Bool) (rn : Reg) (rd : Reg) (rs : Reg) (k : ShiftKind) (rm : Reg) :
    Statement (.movRegShift c s rn rd rs k rm) :=
  arm_matches _ _ _ (by simp [ArmParts.mask, ArmParts.ofWord])

theorem bicRegShift (c : Cond) (s : Bool) (rn : Reg) (rd : Reg) (rs : Reg) (k : ShiftKind) (rm : Reg) :
    Statement (.bicRegShift c s rn rd rs k rm) :=
  arm_matches _ _ _ (by simp [ArmParts.mask, ArmParts.ofWord])

theorem mvnRegShift (c : Cond) (s : Bool) (rn : Reg) (rd : Reg) (rs : Reg) (k : ShiftKind) (rm : Reg) :
    Statement (.mvnRegShift c s rn rd rs k rm) :=
  arm_matches _ _ _ (by simp [ArmParts.mask, ArmParts.ofWord])

theorem mul (c : Cond) (s : Bool) (rd : Reg) (rn : Reg) (rs : Reg) (rm : Reg) :
    Statement (.mul c s rd rn rs rm) :=
  arm_matches _ _ _ (by simp [ArmParts.mask, ArmParts.ofWord])

theorem mla (c : Cond) (s : Bool) (rd : Reg) (rn : Reg) (rs : Reg) (rm : Reg) :
    Statement (.mla c s rd rn rs rm) :=
  arm_matches _ _ _ (by simp [ArmParts.mask, ArmParts.ofWord])

theorem undefMulSwap00400090 (c : Cond) (b21 : Bool) (b20 : Bool) (f16 : BitVec 4) (f12 : BitVec 4) (f8 : BitVec 4) (f0 : BitVec 4) :
    Statement (.undefMulSwap00400090 c b21 b20 f16 f12 f8 f0) :=
  arm_matches _ _ _ (by simp [ArmParts.mask, ArmParts.ofWord])

theorem umull (c : Cond) (s : Bool) (rdHi : Reg) (rdLo : Reg) (rs : Reg) (rm : Reg) :
    Statement (.umull c s rdHi rdLo rs rm) :=
  arm_matches _ _ _ (by simp [ArmParts.mask, ArmParts.ofWord])

theorem umlal (c : Cond) (s : Bool) (rdHi : Reg) (rdLo : Reg) (rs : Reg) (rm : Reg) :
    Statement (.umlal c s rdHi rdLo rs rm) :=
  arm_matches _ _ _ (by simp [ArmParts.mask, ArmParts.ofWord])

theorem smull (c : Cond) (s : Bool) (rdHi : Reg) (rdLo : Reg) (rs : Reg) (rm : Reg) :
    Statement (.smull c s rdHi rdLo rs rm) :=
  arm_matches _ _ _ (by simp [ArmParts.mask, ArmParts.ofWord])

theorem smlal (c : Cond) (s : Bool) (rdHi : Reg) (rdLo : Reg) (rs : Reg) (rm : Reg) :
    Statement (.smlal c s rdHi rdLo rs rm) :=
  arm_matches _ _ _ (by simp [ArmParts.mask, ArmParts.ofWord])

theorem swp (c : Cond) (rn : Reg) (rd : Reg) (sbz : BitVec 4) (rm : Reg) :
    Statement (.swp c rn rd sbz rm) :=
  arm_matches _ _ _ (by simp [ArmParts.mask, ArmParts.ofWord])

theorem swpb (c : Cond) (rn : Reg) (rd : Reg) (sbz : BitVec 4) (rm : Reg) :
    Statement (.swpb c rn rd sbz rm) :=
  arm_matches _ _ _ (by simp [ArmParts.mask, ArmParts.ofWord])

theorem undefMulSwap01100090 (c : Cond) (b22 : Bool) (f16 : BitVec 4) (f12 : BitVec 4) (f8 : BitVec 4) (f0 : BitVec 4) :
    Statement (.undefMulSwap01100090 c b22 f16 f12 f8 f0) :=
  arm_matches _ _ _ (by simp [ArmParts.mask, ArmParts.ofWord])

theorem undefMulSwap01200090 (c : Cond) (b22 : Bool) (b20 : Bool) (f16 : BitVec 4) (f12 : BitVec 4) (f8 : BitVec 4) (f0 : BitVec 4) :
    Statement (.undefMulSwap01200090 c b22 b20 f16 f12 f8 f0) :=
  arm_matches _ _ _ (by simp [ArmParts.mask, ArmParts.ofWord])

theorem undefMulSwap01800090 (c : Cond) (b22 : Bool) (b21 : Bool) (b20 : Bool) (f16 : BitVec 4) (f12 : BitVec 4) (f8 : BitVec 4) (f0 : BitVec 4) :
    Statement (.undefMulSwap01800090 c b22 b21 b20 f16 f12 f8 f0) :=
  arm_matches _ _ _ (by simp [ArmParts.mask, ArmParts.ofWord])

theorem strhReg (c : Cond) (p : Bool) (u : Bool) (w : Bool) (rn : Reg) (rd : Reg) (sbz : BitVec 4) (rm : Reg) :
    Statement (.strhReg c p u w rn rd sbz rm) :=
  arm_matches _ _ _ (by simp [ArmParts.mask, ArmParts.ofWord])

theorem ldrhReg (c : Cond) (p : Bool) (u : Bool) (w : Bool) (rn : Reg) (rd : Reg) (sbz : BitVec 4) (rm : Reg) :
    Statement (.ldrhReg c p u w rn rd sbz rm) :=
  arm_matches _ _ _ (by simp [ArmParts.mask, ArmParts.ofWord])

theorem strhImm (c : Cond) (p : Bool) (u : Bool) (w : Bool) (rn : Reg) (rd : Reg) (immHi : BitVec 4) (immLo : BitVec 4) :
    Statement (.strhImm c p u w rn rd immHi immLo) :=
  arm_matches _ _ _ (by simp [ArmParts.mask, ArmParts.ofWord])

theorem ldrhImm (c : Cond) (p : Bool) (u : Bool) (w : Bool) (rn : Reg) (rd : Reg) (immHi : BitVec 4) (immLo : BitVec 4) :
    Statement (.ldrhImm c p u w rn rd immHi immLo) :=
  arm_matches _ _ _ (by simp [ArmParts.mask, ArmParts.ofWord])

theorem undefHalfStore (c : Cond) (b24 : Bool) (b23 : Bool) (b22 : Bool) (b21 : Bool) (f16 : BitVec 4) (f12 : BitVec 4) (f8 : BitVec 4) (b5 : Bool) (f0 : BitVec 4) :
    Statement (.undefHalfStore c b24 b23 b22 b21 f16 f12 f8 b5 f0) :=
  arm_matches _ _ _ (by simp [ArmParts.mask, ArmParts.ofWord])

theorem ldrsbReg (c : Cond) (p : Bool) (u : Bool) (w : Bool) (rn : Reg) (rd : Reg) (sbz : BitVec 4) (rm : Reg) :
    Statement (.ldrsbReg c p u w rn rd sbz rm) :=
  arm_matches _ _ _ (by simp [ArmParts.mask, ArmParts.ofWord])

theorem ldrshReg (c : Cond) (p : Bool) (u : Bool) (w : Bool) (rn : Reg) (rd : Reg) (sbz : BitVec 4) (rm : Reg) :
    Statement (.ldrshReg c p u w rn rd sbz rm) :=
  arm_matches _ _ _ (by simp [ArmParts.mask, ArmParts.ofWord])

theorem ldrsbImm (c : Cond) (p : Bool) (u : Bool) (w : Bool) (rn : Reg) (rd : Reg) (immHi : BitVec 4) (immLo : BitVec 4) :
    Statement (.ldrsbImm c p u w rn rd immHi immLo) :=
  arm_matches _ _ _ (by simp [ArmParts.mask, ArmParts.ofWord])

theorem ldrshImm (c : Cond) (p : Bool) (u : Bool) (w : Bool) (rn : Reg) (rd : Reg) (immHi : BitVec 4) (immLo : BitVec 4) :
    Statement (.ldrshImm c p u w rn rd immHi immLo) :=
  arm_matches _ _ _ (by simp [ArmParts.mask, ArmParts.ofWord])

theorem andImm (c : Cond) (s : Bool) (rn : Reg) (rd : Reg) (rot : BitVec 4) (imm : BitVec 8) :
    Statement (.andImm c s rn rd rot imm) :=
  arm_matches _ _ _ (by simp [ArmParts.mask, ArmParts.ofWord])

theorem eorImm (c : Cond) (s : Bool) (rn : Reg) (rd : Reg) (rot : BitVec 4) (imm : BitVec 8) :
    Statement (.eorImm c s rn rd rot imm) :=
  arm_matches _ _ _ (by simp [ArmParts.mask, ArmParts.ofWord])

theorem subImm (c : Cond) (s : Bool) (rn : Reg) (rd : Reg) (rot : BitVec 4) (imm : BitVec 8) :
    Statement (.subImm c s rn rd rot imm) :=
  arm_matches _ _ _ (by simp [ArmParts.mask, ArmParts.ofWord])

theorem rsbImm (c : Cond) (s : Bool) (rn : Reg) (rd : Reg) (rot : BitVec 4) (imm : BitVec 8) :
    Statement (.rsbImm c s rn rd rot imm) :=
  arm_matches _ _ _ (by simp [ArmParts.mask, ArmParts.ofWord])

theorem addImm (c : Cond) (s : Bool) (rn : Reg) (rd : Reg) (rot : BitVec 4) (imm : BitVec 8) :
    Statement (.addImm c s rn rd rot imm) :=
  arm_matches _ _ _ (by simp [ArmParts.mask, ArmParts.ofWord])

theorem adcImm (c : Cond) (s : Bool) (rn : Reg) (rd : Reg) (rot : BitVec 4) (imm : BitVec 8) :
    Statement (.adcImm c s rn rd rot imm) :=
  arm_matches _ _ _ (by simp [ArmParts.mask, ArmParts.ofWord])

theorem sbcImm (c : Cond) (s : Bool) (rn : Reg) (rd : Reg) (rot : BitVec 4) (imm : BitVec 8) :
    Statement (.sbcImm c s rn rd rot imm) :=
  arm_matches _ _ _ (by simp [ArmParts.mask, ArmParts.ofWord])

theorem rscImm (c : Cond) (s : Bool) (rn : Reg) (rd : Reg) (rot : BitVec 4) (imm : BitVec 8) :
    Statement (.rscImm c s rn rd rot imm) :=
  arm_matches _ _ _ (by simp [ArmParts.mask, ArmParts.ofWord])

theorem undefTstImm (c : Cond) (b22 : Bool) (f16 : BitVec 4) (f12 : BitVec 4) (f8 : BitVec 4) (b7 : Bool) (b6 : Bool) (b5 : Bool) (b4 : Bool) (f0 : BitVec 4) :
    Statement (.undefTstImm c b22 f16 f12 f8 b7 b6 b5 b4 f0) :=
  arm_matches _ _ _ (by simp [ArmParts.mask, ArmParts.ofWord])

theorem tstImm (c : Cond) (rn : Reg) (rd : Reg) (rot : BitVec 4) (imm : BitVec 8) :
    Statement (.tstImm c rn rd rot imm) :=
  arm_matches _ _ _ (by simp [ArmParts.mask, ArmParts.ofWord])

theorem cmpImm (c : Cond) (rn : Reg) (rd : Reg) (rot : BitVec 4) (imm : BitVec 8) :
    Statement (.cmpImm c rn rd rot imm) :=
  arm_matches _ _ _ (by simp [ArmParts.mask, ArmParts.ofWord])

theorem msrImm (c : Cond) (r : Bool) (fm : BitVec 4) (sbo : BitVec 4) (rot : BitVec 4) (imm : BitVec 8) :
    Statement (.msrImm c r fm sbo rot imm) :=
  arm_matches _ _ _ (by simp [ArmParts.mask, ArmParts.ofWord])

theorem teqImm (c : Cond) (rn : Reg) (rd : Reg) (rot : BitVec 4) (imm : BitVec 8) :
    Statement (.teqImm c rn rd rot imm) :=
  arm_matches _ _ _ (by simp [ArmParts.mask, ArmParts.ofWord])

theorem cmnImm (c : Cond) (rn : Reg) (rd : Reg) (rot : BitVec 4) (imm : BitVec 8) :
    Statement (.cmnImm c rn rd rot imm) :=
  arm_matches _ _ _ (by simp [ArmParts.mask, ArmParts.ofWord])

theorem orrImm (c : Cond) (s : Bool) (rn : Reg) (rd : Reg) (rot : BitVec 4) (imm : BitVec 8) :
    Statement (.orrImm c s rn rd rot imm) :=
  arm_matches _ _ _ (by simp [ArmParts.mask, ArmParts.ofWord])

theorem movImm (c : Cond) (s : Bool) (rn : Reg) (rd : Reg) (rot : BitVec 4) (imm : BitVec 8) :
    Statement (.movImm c s rn rd rot imm) :=
  arm_matches _ _ _ (by simp [ArmParts.mask, ArmParts.ofWord])

theorem bicImm (c : Cond) (s : Bool) (rn : Reg) (rd : Reg) (rot : BitVec 4) (imm : BitVec 8) :
    Statement (.bicImm c s rn rd rot imm) :=
  arm_matches _ _ _ (by simp [ArmParts.mask, ArmParts.ofWord])

theorem mvnImm (c : Cond) (s : Bool) (rn : Reg) (rd : Reg) (rot : BitVec 4) (imm : BitVec 8) :
    Statement (.mvnImm c s rn rd rot imm) :=
  arm_matches _ _ _ (by simp [ArmParts.mask, ArmParts.ofWord])

theorem strImmPost (c : Cond) (u : Bool) (rn : Reg) (rd : Reg) (off : BitVec 12) :
    Statement (.strImmPost c u rn rd off) :=
  arm_matches _ _ _ (by simp [ArmParts.mask, ArmParts.ofWord])

theorem ldrImmPost (c : Cond) (u : Bool) (rn : Reg) (rd : Reg) (off : BitVec 12) :
    Statement (.ldrImmPost c u rn rd off) :=
  arm_matches _ _ _ (by simp [ArmParts.mask, ArmParts.ofWord])

theorem strtImm (c : Cond) (u : Bool) (rn : Reg) (rd : Reg) (off : BitVec 12) :
    Statement (.strtImm c u rn rd off) :=
  arm_matches _ _ _ (by simp [ArmParts.mask, ArmParts.ofWord])

theorem ldrtImm (c : Cond) (u : Bool) (rn : Reg) (rd : Reg) (off : BitVec 12) :
    Statement (.ldrtImm c u rn rd off) :=
  arm_matches _ _ _ (by simp [ArmParts.mask, ArmParts.ofWord])

theorem strbImmPost (c : Cond) (u : Bool) (rn : Reg) (rd : Reg) (off : BitVec 12) :
    Statement (.strbImmPost c u rn rd off) :=
  arm_matches _ _ _ (by simp [ArmParts.mask, ArmParts.ofWord])

theorem ldrbImmPost (c : Cond) (u : Bool) (rn : Reg) (rd : Reg) (off : BitVec 12) :
    Statement (.ldrbImmPost c u rn rd off) :=
  arm_matches _ _ _ (by simp [ArmParts.mask, ArmParts.ofWord])

theorem strbtImm (c : Cond) (u : Bool) (rn : Reg) (rd : Reg) (off : BitVec 12) :
    Statement (.strbtImm c u rn rd off) :=
  arm_matches _ _ _ (by simp [ArmParts.mask, ArmParts.ofWord])

theorem ldrbtImm (c : Cond) (u : Bool) (rn : Reg) (rd : Reg) (off : BitVec 12) :
    Statement (.ldrbtImm c u rn rd off) :=
  arm_matches _ _ _ (by simp [ArmParts.mask, ArmParts.ofWord])

theorem strImmPre (c : Cond) (u : Bool) (w : Bool) (rn : Reg) (rd : Reg) (off : BitVec 12) :
    Statement (.strImmPre c u w rn rd off) :=
  arm_matches _ _ _ (by simp [ArmParts.mask, ArmParts.ofWord])

theorem ldrImmPre (c : Cond) (u : Bool) (w : Bool) (rn : Reg) (rd : Reg) (off : BitVec 12) :
    Statement (.ldrImmPre c u w rn rd off) :=
  arm_matches _ _ _ (by simp [ArmParts.mask, ArmParts.ofWord])

theorem strbImmPre (c : Cond) (u : Bool) (w : Bool) (rn : Reg) (rd : Reg) (off : BitVec 12) :
    Statement (.strbImmPre c u w rn rd off) :=
  arm_matches _ _ _ (by simp [ArmParts.mask, ArmParts.ofWord])

theorem ldrbImmPre (c : Cond) (u : Bool) (w : Bool) (rn : Reg) (rd : Reg) (off : BitVec 12) :
    Statement (.ldrbImmPre c u w rn rd off) :=
  arm_matches _ _ _ (by simp [ArmParts.mask, ArmParts.ofWord])

theorem strRegPost (c : Cond) (u : Bool) (rn : Reg) (rd : Reg) (amt : BitVec 5) (k : ShiftKind) (rm : Reg) :
    Statement (.strRegPost c u rn rd amt k rm) :=
  arm_matches _ _ _ (by simp [ArmParts.mask, ArmParts.ofWord])

theorem ldrRegPost (c : Cond) (u : Bool) (rn : Reg) (rd : Reg) (amt : BitVec 5) (k : ShiftKind) (rm : Reg) :
    Statement (.ldrRegPost c u rn rd amt k rm) :=
  arm_matches _ _ _ (by simp [ArmParts.mask, ArmParts.ofWord])

theorem strtReg (c : Cond) (u : Bool) (rn : Reg) (rd : Reg) (amt : BitVec 5) (k : ShiftKind) (rm : Reg) :
    Statement (.strtReg c u rn rd amt k rm) :=
  arm_matches _ _ _ (by simp [ArmParts.mask, ArmParts.ofWord])

theorem ldrtReg (c : Cond) (u : Bool) (rn : Reg) (rd : Reg) (amt : BitVec 5) (k : ShiftKind) (rm : Reg) :
    Statement (.ldrtReg c u rn rd amt k rm) :=
  arm_matches _ _ _ (by simp [ArmParts.mask, ArmParts.ofWord])

theorem strbRegPost (c : Cond) (u : Bool) (rn : Reg) (rd : Reg) (amt : BitVec 5) (k : ShiftKind) (rm : Reg) :
    Statement (.strbRegPost c u rn rd amt k rm) :=
  arm_matches _ _ _ (by simp [ArmParts.mask, ArmParts.ofWord])

theorem ldrbRegPost (c : Cond) (u : Bool) (rn : Reg) (rd : Reg) (amt : BitVec 5) (k : ShiftKind) (rm : Reg) :
    Statement (.ldrbRegPost c u rn rd amt k rm) :=
  arm_matches _ _ _ (by simp [ArmParts.mask, ArmParts.ofWord])

theorem strbtReg (c : Cond) (u : Bool) (rn : Reg) (rd : Reg) (amt : BitVec 5) (k : ShiftKind) (rm : Reg) :
    Statement (.strbtReg c u rn rd amt k rm) :=
  arm_matches _ _ _ (by simp [ArmParts.mask, ArmParts.ofWord])

theorem ldrbtReg (c : Cond) (u : Bool) (rn : Reg) (rd : Reg) (amt : BitVec 5) (k : ShiftKind) (rm : Reg) :
    Statement (.ldrbtReg c u rn rd amt k rm) :=
  arm_matches _ _ _ (by simp [ArmParts.mask, ArmParts.ofWord])

theorem strRegPre (c : Cond) (u : Bool) (w : Bool) (rn : Reg) (rd : Reg) (amt : BitVec 5) (k : ShiftKind) (rm : Reg) :
    Statement (.strRegPre c u w rn rd amt k rm) :=
  arm_matches _ _ _ (by simp [ArmParts.mask, ArmParts.ofWord])

theorem ldrRegPre (c : Cond) (u : Bool) (w : Bool) (rn : Reg) (rd : Reg) (amt : BitVec 5) (k : ShiftKind) (rm : Reg) :
    Statement (.ldrRegPre c u w rn rd amt k rm) :=
  arm_matches _ _ _ (by simp [ArmParts.mask, ArmParts.ofWord])

theorem strbRegPre (c : Cond) (u : Bool) (w : Bool) (rn : Reg) (rd : Reg) (amt : BitVec 5) (k : ShiftKind) (rm : Reg) :
    Statement (.strbRegPre c u w rn rd amt k rm) :=
  arm_matches _ _ _ (by simp [ArmParts.mask, ArmParts.ofWord])

theorem ldrbRegPre (c : Cond) (u : Bool) (w : Bool) (rn : Reg) (rd : Reg) (amt : BitVec 5) (k : ShiftKind) (rm : Reg) :
    Statement (.ldrbRegPre c u w rn rd amt k rm) :=
  arm_matches _ _ _ (by simp [ArmParts.mask, ArmParts.ofWord])

theorem undefArch (c : Cond) (b24 : Bool) (b23 : Bool) (b22 : Bool) (b21 : Bool) (b20 : Bool) (f16 : BitVec 4) (f12 : BitVec 4) (f8 : BitVec 4) (b7 : Bool) (b6 : Bool) (b5 : Bool) (f0 : BitVec 4) :
    Statement (.undefArch c b24 b23 b22 b21 b20 f16 f12 f8 b7 b6 b5 f0) :=
  arm_matches _ _ _ (by simp [ArmParts.mask, ArmParts.ofWord])

theorem stm (c : Cond) (p : Bool) (u : Bool) (s : Bool) (w : Bool) (rn : Reg) (list : BitVec 16) :
    Statement (.stm c p u s w rn list) :=
  arm_matches _ _ _ (by simp [ArmParts.mask, ArmParts.ofWord])

theorem ldm (c : Cond) (p : Bool) (u : Bool) (s : Bool) (w : Bool) (rn : Reg) (list : BitVec 16) :
    Statement (.ldm c p u s w rn list) :=
  arm_matches _ _ _ (by simp [ArmParts.mask, ArmParts.ofWord])

theorem b (c : Cond) (off : BitVec 24) :
    Statement (.b c off) :=
  arm_matches _ _ _ (by simp [ArmParts.mask, ArmParts.ofWord])

theorem bl (c : Cond) (off : BitVec 24) :
    Statement (.bl c off) :=
  arm_matches _ _ _ (by simp [ArmParts.mask, ArmParts.ofWord])

theorem stc (c : Cond) (p : Bool) (u : Bool) (n : Bool) (w : Bool) (rn : Reg) (crd : BitVec 4) (cp : BitVec 4) (off : BitVec 8) :
    Statement (.stc c p u n w rn crd cp off) :=
  arm_matches _ _ _ (by simp [ArmParts.mask, ArmParts.ofWord])

theorem ldc (c : Cond) (p : Bool) (u : Bool) (n : Bool) (w : Bool) (rn : Reg) (crd : BitVec 4) (cp : BitVec 4) (off : BitVec 8) :
    Statement (.ldc c p u n w rn crd cp off) :=
  arm_matches _ _ _ (by simp [ArmParts.mask, ArmParts.ofWord])

theorem cdp (c : Cond) (op1 : BitVec 4) (crn : BitVec 4) (crd : BitVec 4) (cp : BitVec 4) (op2 : BitVec 3) (crm : BitVec 4) :
    Statement (.cdp c op1 crn crd cp op2 crm) :=
  arm_matches _ _ _ (by simp [ArmParts.mask, ArmParts.ofWord])

theorem mcr (c : Cond) (op1 : BitVec 3) (crn : BitVec 4) (rd : Reg) (cp : BitVec 4) (op2 : BitVec 3) (crm : BitVec 4) :
    Statement (.mcr c op1 crn rd cp op2 crm) :=
  arm_matches _ _ _ (by simp [ArmParts.mask, ArmParts.ofWord])

theorem mrc (c : Cond) (op1 : BitVec 3) (crn : BitVec 4) (rd : Reg) (cp : BitVec 4) (op2 : BitVec 3) (crm : BitVec 4) :
    Statement (.mrc c op1 crn rd cp op2 crm) :=
  arm_matches _ _ _ (by simp [ArmParts.mask, ArmParts.ofWord])

theorem swi (c : Cond) (cmt : BitVec 24) :
    Statement (.swi c cmt) :=
  arm_matches _ _ _ (by simp [ArmParts.mask, ArmParts.ofWord])

theorem tLslImm (off : BitVec 5) (rs : LowReg) (rd : LowReg) :
    Statement (.tLslImm off rs rd) :=
  thumb_matches _ _ _ (by simp [ThumbParts.mask, ThumbParts.ofHalf])

theorem tLsrImm (off : BitVec 5) (rs : LowReg) (rd : LowReg) :
    Statement (.tLsrImm off rs rd) :=
  thumb_matches _ _ _ (by simp [ThumbParts.mask, ThumbParts.ofHalf])

theorem tAsrImm (off : BitVec 5) (rs : LowReg) (rd : LowReg) :
    Statement (.tAsrImm off rs rd) :=
  thumb_matches _ _ _ (by simp [ThumbParts.mask, ThumbParts.ofHalf])

theorem tAddReg (rn : LowReg) (rs : LowReg) (rd : LowReg) :
    Statement (.tAddReg rn rs rd) :=
  thumb_matches _ _ _ (by simp [ThumbParts.mask, ThumbParts.ofHalf])

theorem tSubReg (rn : LowReg) (rs : LowReg) (rd : LowReg) :
    Statement (.tSubReg rn rs rd) :=
  thumb_matches _ _ _ (by simp [ThumbParts.mask, ThumbParts.ofHalf])

theorem tAddImm3 (imm : BitVec 3) (rs : LowReg) (rd : LowReg) :
    Statement (.tAddImm3 imm rs rd) :=
  thumb_matches _ _ _ (by simp [ThumbParts.mask, ThumbParts.ofHalf])

theorem tSubImm3 (imm : BitVec 3) (rs : LowReg) (rd : LowReg) :
    Statement (.tSubImm3 imm rs rd) :=
  thumb_matches _ _ _ (by simp [ThumbParts.mask, ThumbParts.ofHalf])

theorem tMovImm (rd : LowReg) (imm : BitVec 8) :
    Statement (.tMovImm rd imm) :=
  thumb_matches _ _ _ (by simp [ThumbParts.mask, ThumbParts.ofHalf])

theorem tCmpImm (rd : LowReg) (imm : BitVec 8) :
    Statement (.tCmpImm rd imm) :=
  thumb_matches _ _ _ (by simp [ThumbParts.mask, ThumbParts.ofHalf])

theorem tAddImm8 (rd : LowReg) (imm : BitVec 8) :
    Statement (.tAddImm8 rd imm) :=
  thumb_matches _ _ _ (by simp [ThumbParts.mask, ThumbParts.ofHalf])

theorem tSubImm8 (rd : LowReg) (imm : BitVec 8) :
    Statement (.tSubImm8 rd imm) :=
  thumb_matches _ _ _ (by simp [ThumbParts.mask, ThumbParts.ofHalf])

theorem tAnd (rs : LowReg) (rd : LowReg) :
    Statement (.tAnd rs rd) :=
  thumb_matches _ _ _ (by simp [ThumbParts.mask, ThumbParts.ofHalf])

theorem tEor (rs : LowReg) (rd : LowReg) :
    Statement (.tEor rs rd) :=
  thumb_matches _ _ _ (by simp [ThumbParts.mask, ThumbParts.ofHalf])

theorem tLslReg (rs : LowReg) (rd : LowReg) :
    Statement (.tLslReg rs rd) :=
  thumb_matches _ _ _ (by simp [ThumbParts.mask, ThumbParts.ofHalf])

theorem tLsrReg (rs : LowReg) (rd : LowReg) :
    Statement (.tLsrReg rs rd) :=
  thumb_matches _ _ _ (by simp [ThumbParts.mask, ThumbParts.ofHalf])

theorem tAsrReg (rs : LowReg) (rd : LowReg) :
    Statement (.tAsrReg rs rd) :=
  thumb_matches _ _ _ (by simp [ThumbParts.mask, ThumbParts.ofHalf])

theorem tAdc (rs : LowReg) (rd : LowReg) :
    Statement (.tAdc rs rd) :=
  thumb_matches _ _ _ (by simp [ThumbParts.mask, ThumbParts.ofHalf])

theorem tSbc (rs : LowReg) (rd : LowReg) :
    Statement (.tSbc rs rd) :=
  thumb_matches _ _ _ (by simp [ThumbParts.mask, ThumbParts.ofHalf])

theorem tRorReg (rs : LowReg) (rd : LowReg) :
    Statement (.tRorReg rs rd) :=
  thumb_matches _ _ _ (by simp [ThumbParts.mask, ThumbParts.ofHalf])

theorem tTst (rs : LowReg) (rd : LowReg) :
    Statement (.tTst rs rd) :=
  thumb_matches _ _ _ (by simp [ThumbParts.mask, ThumbParts.ofHalf])

theorem tNeg (rs : LowReg) (rd : LowReg) :
    Statement (.tNeg rs rd) :=
  thumb_matches _ _ _ (by simp [ThumbParts.mask, ThumbParts.ofHalf])

theorem tCmpReg (rs : LowReg) (rd : LowReg) :
    Statement (.tCmpReg rs rd) :=
  thumb_matches _ _ _ (by simp [ThumbParts.mask, ThumbParts.ofHalf])

theorem tCmn (rs : LowReg) (rd : LowReg) :
    Statement (.tCmn rs rd) :=
  thumb_matches _ _ _ (by simp [ThumbParts.mask, ThumbParts.ofHalf])

theorem tOrr (rs : LowReg) (rd : LowReg) :
    Statement (.tOrr rs rd) :=
  thumb_matches _ _ _ (by simp [ThumbParts.mask, ThumbParts.ofHalf])

theorem tMul (rs : LowReg) (rd : LowReg) :
    Statement (.tMul rs rd) :=
  thumb_matches _ _ _ (by simp [ThumbParts.mask, ThumbParts.ofHalf])

theorem tBic (rs : LowReg) (rd : LowReg) :
    Statement (.tBic rs rd) :=
  thumb_matches _ _ _ (by simp [ThumbParts.mask, ThumbParts.ofHalf])

theorem tMvn (rs : LowReg) (rd : LowReg) :
    Statement (.tMvn rs rd) :=
  thumb_matches _ _ _ (by simp [ThumbParts.mask, ThumbParts.ofHalf])

theorem tAddHi (h1 : Bool) (h2 : Bool) (rs : LowReg) (rd : LowReg) :
    Statement (.tAddHi h1 h2 rs rd) :=
  thumb_matches _ _ _ (by simp [ThumbParts.mask, ThumbParts.ofHalf])

theorem tCmpHi (h1 : Bool) (h2 : Bool) (rs : LowReg) (rd : LowReg) :
    Statement (.tCmpHi h1 h2 rs rd) :=
  thumb_matches _ _ _ (by simp [ThumbParts.mask, ThumbParts.ofHalf])

theorem tMovHi (h1 : Bool) (h2 : Bool) (rs : LowReg) (rd : LowReg) :
    Statement (.tMovHi h1 h2 rs rd) :=
  thumb_matches _ _ _ (by simp [ThumbParts.mask, ThumbParts.ofHalf])

theorem tBx (h1 : Bool) (h2 : Bool) (rs : LowReg) (rd : LowReg) :
    Statement (.tBx h1 h2 rs rd) :=
  thumb_matches _ _ _ (by simp [ThumbParts.mask, ThumbParts.ofHalf])

theorem tLdrPc (rd : LowReg) (off : BitVec 8) :
    Statement (.tLdrPc rd off) :=
  thumb_matches _ _ _ (by simp [ThumbParts.mask, ThumbParts.ofHalf])

theorem tStrReg (ro : LowReg) (rb : LowReg) (rd : LowReg) :
    Statement (.tStrReg ro rb rd) :=
  thumb_matches _ _ _ (by simp [ThumbParts.mask, ThumbParts.ofHalf])

theorem tStrhReg (ro : LowReg) (rb : LowReg) (rd : LowReg) :
    Statement (.tStrhReg ro rb rd) :=
  thumb_matches _ _ _ (by simp [ThumbParts.mask, ThumbParts.ofHalf])

theorem tStrbReg (ro : LowReg) (rb : LowReg) (rd : LowReg) :
    Statement (.tStrbReg ro rb rd) :=
  thumb_matches _ _ _ (by simp [ThumbParts.mask, ThumbParts.ofHalf])

theorem tLdrsbReg (ro : LowReg) (rb : LowReg) (rd : LowReg) :
    Statement (.tLdrsbReg ro rb rd) :=
  thumb_matches _ _ _ (by simp [ThumbParts.mask, ThumbParts.ofHalf])

theorem tLdrReg (ro : LowReg) (rb : LowReg) (rd : LowReg) :
    Statement (.tLdrReg ro rb rd) :=
  thumb_matches _ _ _ (by simp [ThumbParts.mask, ThumbParts.ofHalf])

theorem tLdrhReg (ro : LowReg) (rb : LowReg) (rd : LowReg) :
    Statement (.tLdrhReg ro rb rd) :=
  thumb_matches _ _ _ (by simp [ThumbParts.mask, ThumbParts.ofHalf])

theorem tLdrbReg (ro : LowReg) (rb : LowReg) (rd : LowReg) :
    Statement (.tLdrbReg ro rb rd) :=
  thumb_matches _ _ _ (by simp [ThumbParts.mask, ThumbParts.ofHalf])

theorem tLdrshReg (ro : LowReg) (rb : LowReg) (rd : LowReg) :
    Statement (.tLdrshReg ro rb rd) :=
  thumb_matches _ _ _ (by simp [ThumbParts.mask, ThumbParts.ofHalf])

theorem tStrImm (off : BitVec 5) (rb : LowReg) (rd : LowReg) :
    Statement (.tStrImm off rb rd) :=
  thumb_matches _ _ _ (by simp [ThumbParts.mask, ThumbParts.ofHalf])

theorem tLdrImm (off : BitVec 5) (rb : LowReg) (rd : LowReg) :
    Statement (.tLdrImm off rb rd) :=
  thumb_matches _ _ _ (by simp [ThumbParts.mask, ThumbParts.ofHalf])

theorem tStrbImm (off : BitVec 5) (rb : LowReg) (rd : LowReg) :
    Statement (.tStrbImm off rb rd) :=
  thumb_matches _ _ _ (by simp [ThumbParts.mask, ThumbParts.ofHalf])

theorem tLdrbImm (off : BitVec 5) (rb : LowReg) (rd : LowReg) :
    Statement (.tLdrbImm off rb rd) :=
  thumb_matches _ _ _ (by simp [ThumbParts.mask, ThumbParts.ofHalf])

theorem tStrhImm (off : BitVec 5) (rb : LowReg) (rd : LowReg) :
    Statement (.tStrhImm off rb rd) :=
  thumb_matches _ _ _ (by simp [ThumbParts.mask, ThumbParts.ofHalf])

theorem tLdrhImm (off : BitVec 5) (rb : LowReg) (rd : LowReg) :
    Statement (.tLdrhImm off rb rd) :=
  thumb_matches _ _ _ (by simp [ThumbParts.mask, ThumbParts.ofHalf])

theorem tStrSp (rd : LowReg) (off : BitVec 8) :
    Statement (.tStrSp rd off) :=
  thumb_matches _ _ _ (by simp [ThumbParts.mask, ThumbParts.ofHalf])

theorem tLdrSp (rd : LowReg) (off : BitVec 8) :
    Statement (.tLdrSp rd off) :=
  thumb_matches _ _ _ (by simp [ThumbParts.mask, ThumbParts.ofHalf])

theorem tAddPc (rd : LowReg) (off : BitVec 8) :
    Statement (.tAddPc rd off) :=
  thumb_matches _ _ _ (by simp [ThumbParts.mask, ThumbParts.ofHalf])

theorem tAddSp (rd : LowReg) (off : BitVec 8) :
    Statement (.tAddSp rd off) :=
  thumb_matches _ _ _ (by simp [ThumbParts.mask, ThumbParts.ofHalf])

theorem tSpAdd (off : BitVec 7) :
    Statement (.tSpAdd off) :=
  thumb_matches _ _ _ (by simp [ThumbParts.mask, ThumbParts.ofHalf])

theorem tSpSub (off : BitVec 7) :
    Statement (.tSpSub off) :=
  thumb_matches _ _ _ (by simp [ThumbParts.mask, ThumbParts.ofHalf])

theorem tUndefB1 (low : BitVec 8) :
    Statement (.tUndefB1 low) :=
  thumb_matches _ _ _ (by simp [ThumbParts.mask, ThumbParts.ofHalf])

theorem tPush (r : Bool) (list : BitVec 8) :
    Statement (.tPush r list) :=
  thumb_matches _ _ _ (by simp [ThumbParts.mask, ThumbParts.ofHalf])

theorem tUndefB8 (low : BitVec 9) :
    Statement (.tUndefB8 low) :=
  thumb_matches _ _ _ (by simp [ThumbParts.mask, ThumbParts.ofHalf])

theorem tPop (r : Bool) (list : BitVec 8) :
    Statement (.tPop r list) :=
  thumb_matches _ _ _ (by simp [ThumbParts.mask, ThumbParts.ofHalf])

theorem tUndefB2 (b11 : Bool) (b10 : Bool) (low : BitVec 9) :
    Statement (.tUndefB2 b11 b10 low) :=
  thumb_matches _ _ _ (by simp [ThumbParts.mask, ThumbParts.ofHalf])

theorem tStmia (rb : LowReg) (list : BitVec 8) :
    Statement (.tStmia rb list) :=
  thumb_matches _ _ _ (by simp [ThumbParts.mask, ThumbParts.ofHalf])

theorem tLdmia (rb : LowReg) (list : BitVec 8) :
    Statement (.tLdmia rb list) :=
  thumb_matches _ _ _ (by simp [ThumbParts.mask, ThumbParts.ofHalf])

theorem tBcondD0 (cb : BitVec 3) (off : BitVec 8) :
    Statement (.tBcondD0 cb off) :=
  thumb_matches _ _ _ (by simp [ThumbParts.mask, ThumbParts.ofHalf])

theorem tBcondD8 (cb : BitVec 2) (off : BitVec 8) :
    Statement (.tBcondD8 cb off) :=
  thumb_matches _ _ _ (by simp [ThumbParts.mask, ThumbParts.ofHalf])

theorem tBcondDC (cb : BitVec 1) (off : BitVec 8) :
    Statement (.tBcondDC cb off) :=
  thumb_matches _ _ _ (by simp [ThumbParts.mask, ThumbParts.ofHalf])

theorem tUndefDE (low : BitVec 8) :
    Statement (.tUndefDE low) :=
  thumb_matches _ _ _ (by simp [ThumbParts.mask, ThumbParts.ofHalf])

theorem tSwi (val : BitVec 8) :
    Statement (.tSwi val) :=
  thumb_matches _ _ _ (by simp [ThumbParts.mask, ThumbParts.ofHalf])

theorem tB (off : BitVec 11) :
    Statement (.tB off) :=
  thumb_matches _ _ _ (by simp [ThumbParts.mask, ThumbParts.ofHalf])

theorem tUndefE8 (low : BitVec 11) :
    Statement (.tUndefE8 low) :=
  thumb_matches _ _ _ (by simp [ThumbParts.mask, ThumbParts.ofHalf])

theorem tBlFirst (off : BitVec 11) :
    Statement (.tBlFirst off) :=
  thumb_matches _ _ _ (by simp [ThumbParts.mask, ThumbParts.ofHalf])

theorem tBlSecond (off : BitVec 11) :
    Statement (.tBlSecond off) :=
  thumb_matches _ _ _ (by simp [ThumbParts.mask, ThumbParts.ofHalf])

end Sys2Proof.Laws.Row
end

