-- ==== Sys2Proof/Tests/Slice0.lean ====
section
/-! SUPPORT. Tests: the WellFormed smoke, decoding of words written out from the format tables, one step on small
states with the results of 95_test_vectors.md, and a witness for the hypotheses of every statement. -/

namespace Sys2Proof.Tests

open Sys2Proof Sys2Proof.Machine Sys2Proof.Claims

/-! ## WellFormed: an ill-formed term for each check, refused under its name -/

/-- 30_encoding.md R124. -/
theorem test_illFormed_nvCondition :
    Instr.defect (.b .nv 0) = some .nvCondition := by
  decide

/-- 30_encoding.md R137. -/
theorem test_illFormed_sbzSbo :
    Instr.defect (.movImm .al false 1 0 0 1) = some .sbzSbo
    ∧ Instr.defect (.tstImm .al 0 1 0 1) = some .sbzSbo
    ∧ Instr.defect (.mrs .al false 7 0 0 0) = some .sbzSbo
    ∧ Instr.defect (.mrs .al false 15 0 1 0) = some .sbzSbo
    ∧ Instr.defect (.mrs .al false 15 0 0 1) = some .sbzSbo
    ∧ Instr.defect (.msrReg .al false 1 14 0 0) = some .sbzSbo
    ∧ Instr.defect (.msrReg .al false 1 15 1 0) = some .sbzSbo
    ∧ Instr.defect (.msrImm .al false 1 14 0 0) = some .sbzSbo
    ∧ Instr.defect (.bx .al 0xFFE 0) = some .sbzSbo
    ∧ Instr.defect (.mul .al false 0 1 2 3) = some .sbzSbo
    ∧ Instr.defect (.swp .al 1 2 8 3) = some .sbzSbo
    ∧ Instr.defect (.ldrhReg .al true true false 1 2 4 3) = some .sbzSbo := by
  decide

/-- 40_shifter.md R188. -/
theorem test_illFormed_rsIsPc :
    Instr.defect (.addRegShift .al false 1 0 15 .lsl 2) = some .rsIsPc := by
  decide

/-- 42_arm_psr_multiply_swap.md R250. -/
theorem test_illFormed_mrsRdPc :
    Instr.defect (.mrs .al false 15 15 0 0) = some .mrsRdPc := by
  decide

/-- 42_arm_psr_multiply_swap.md R251. -/
theorem test_illFormed_msrRmPc :
    Instr.defect (.msrReg .al false 1 15 0 15) = some .msrRmPc := by
  decide

/-- 42_arm_psr_multiply_swap.md R253 (a). -/
theorem test_illFormed_mulPc :
    Instr.defect (.mul .al false 0 0 15 3) = some .mulPc
    ∧ Instr.defect (.mla .al false 0 15 2 3) = some .mulPc
    ∧ Instr.defect (.umull .al false 15 0 2 3) = some .mulPc := by
  decide

/-- 42_arm_psr_multiply_swap.md R253 (b), 45_thumb_alu.md R395. -/
theorem test_illFormed_mulOverlap :
    Instr.defect (.mul .al false 3 0 2 3) = some .mulOverlap
    ∧ Instr.defect (.smlal .al false 3 0 2 3) = some .mulOverlap
    ∧ Instr.defect (.umlal .al false 1 3 2 3) = some .mulOverlap
    ∧ Instr.defect (.smull .al false 1 1 2 3) = some .mulOverlap
    ∧ Instr.defect (.tMul 3 3) = some .mulOverlap := by
  decide

/-- 42_arm_psr_multiply_swap.md R260. -/
theorem test_illFormed_swpPc :
    Instr.defect (.swp .al 1 15 0 3) = some .swpPc := by
  decide

/-- 42_arm_psr_multiply_swap.md R260. -/
theorem test_illFormed_swpOverlap :
    Instr.defect (.swp .al 1 2 0 1) = some .swpOverlap
    ∧ Instr.defect (.swpb .al 1 1 0 2) = some .swpOverlap := by
  decide

/-- 43_arm_load_store.md R291, 43_arm_load_store.md R300, 93_implementation_defined.md A.2. -/
theorem test_illFormed_lsPc :
    Instr.defect (.ldrRegPre .al true false 1 2 0 .lsl 15) = some .lsPc
    ∧ Instr.defect (.strImmPost .al true 15 2 4) = some .lsPc
    ∧ Instr.defect (.ldrbImmPre .al true false 1 15 4) = some .lsPc
    ∧ Instr.defect (.strRegPre .al true true 1 2 0 .lsl 1) = some .lsPc
    ∧ Instr.defect (.ldrhImm .al false true true 1 2 0 2) = some .lsPc
    ∧ Instr.defect (.strhImm .al true true false 1 15 0 2) = some .lsPc
    ∧ Instr.defect (.ldrsbReg .al true true false 1 2 0 15) = some .lsPc
    ∧ Instr.defect (.ldrshImm .al true true true 15 2 0 2) = some .lsPc
    ∧ Instr.defect (.ldrhReg .al true true true 1 2 0 1) = some .lsPc
    ∧ Instr.defect (.strhReg .al false true false 1 2 0 1) = some .lsPc := by
  decide

/-- 43_arm_load_store.md R305. -/
theorem test_illFormed_ldmStmPcBase :
    Instr.defect (.ldm .al false true false false 15 1) = some .ldmStmPcBase := by
  decide

/-- 43_arm_load_store.md R308, 43_arm_load_store.md R310. -/
theorem test_illFormed_ldmStmUserBank :
    Instr.defect (.ldm .al false true true true 0 2) = some .ldmStmUserBank
    ∧ Instr.defect (.stm .al false true true true 0 2) = some .ldmStmUserBank := by
  decide

/-- 30_encoding.md R160. -/
theorem test_illFormed_thumbHireg :
    Instr.defect (.tAddHi false false 1 2) = some .thumbHireg
    ∧ Instr.defect (.tBx true false 1 0) = some .thumbHireg
    ∧ Instr.defect (.tBx false false 1 2) = some .thumbHireg := by
  decide

/-- A term with a defect is not well formed, one without is. -/
theorem test_wellFormed : Instr.wellFormed (.tMul 3 3) = false ∧ Instr.wellFormed (.tMul 3 2) = true := by decide

/-! ## Decoding: every row of both tables, its word laid out field by field (30_encoding.md R122..R158) -/

/-- ARM data processing, register shifted by immediate. -/
theorem test_decode_ARM_data_processing_register_shifted_by_immediate_a :
    decodeArm 0b0000_0000000_1_1001_1000_00001_01_0_1100 = .andImmShift .eq true 9 8 1 .lsr 12
    ∧ decodeArm 0b1110_0000001_0_1010_1001_01100_10_0_1101 = .eorImmShift .al false 10 9 12 .asr 13
    ∧ decodeArm 0b1110_0000010_1_1011_1010_10111_11_0_1110 = .subImmShift .al true 11 10 23 .ror 14
    ∧ decodeArm 0b0011_0000011_0_1100_1011_00010_00_0_1111 = .rsbImmShift .cc false 12 11 2 .lsl 15
    ∧ decodeArm 0b1110_0000100_1_1101_1100_01101_01_0_0000 = .addImmShift .al true 13 12 13 .lsr 0
    ∧ decodeArm 0b1110_0000101_0_1110_1101_11000_10_0_0001 = .adcImmShift .al false 14 13 24 .asr 1
    ∧ decodeArm 0b0110_0000110_1_1111_1110_00011_11_0_0010 = .sbcImmShift .vs true 15 14 3 .ror 2
    ∧ decodeArm 0b1110_0000111_0_0000_1111_01110_00_0_0011 = .rscImmShift .al false 0 15 14 .lsl 3
    ∧ decodeArm 0b1110_00010001_0001_0000_01001_10_0_0100 = .tstImmShift .al 1 0 9 .asr 4
    ∧ decodeArm 0b1110_00010011_0010_0000_10100_11_0_0101 = .teqImmShift .al 2 0 20 .ror 5 := by
  decide

/-- ARM data processing, register shifted by immediate. -/
theorem test_decode_ARM_data_processing_register_shifted_by_immediate_b :
    decodeArm 0b0001_00010101_0011_0000_11111_00_0_0110 = .cmpImmShift .ne 3 0 31 .lsl 6
    ∧ decodeArm 0b1110_00010111_0100_0000_01010_01_0_0111 = .cmnImmShift .al 4 0 10 .lsr 7
    ∧ decodeArm 0b1110_0001100_0_1010_1001_11100_10_0_1101 = .orrImmShift .al false 10 9 28 .asr 13
    ∧ decodeArm 0b0100_0001101_1_0000_1010_00111_11_0_1110 = .movImmShift .mi true 0 10 7 .ror 14
    ∧ decodeArm 0b1110_0001110_0_1100_1011_10010_00_0_1111 = .bicImmShift .al false 12 11 18 .lsl 15
    ∧ decodeArm 0b1110_0001111_1_0000_1100_11101_01_0_0000 = .mvnImmShift .al true 0 12 29 .lsr 0 := by
  decide

/-- ARM PSR transfer. -/
theorem test_decode_ARM_PSR_transfer :
    decodeArm 0b1110_00010_1_00_1111_0001_0000_0000_0000 = .mrs .al true 15 1 0 0
    ∧ decodeArm 0b1001_00010_0_10_1010_1111_0000_0000_0111 = .msrReg .ls false 10 15 0 7
    ∧ decodeArm 0b1110_00110_1_10_0101_1111_1100_11110011 = .msrImm .al true 5 15 12 243 := by
  decide

/-- ARM undefined. -/
theorem test_decode_ARM_undefined_a :
    decodeArm 0b1110_00010_1_0_0_1100_0011_1010_0010_0001 = .undefMisc01000020 .al true false 12 3 10 1
    ∧ decodeArm 0b1110_00010_0_1_0_0111_1110_0101_01_1_0_0011 = .undefMisc01000040 .al false true 7 14 5 true 3
    ∧ decodeArm 0b1100_00010_1_0_0_0010_1001_0000_1_0_1_0_0101 = .undefMisc01000080 .gt true false 2 9 0 false true 5
    ∧ decodeArm 0b1110_00010000_1111_0110_1101_0_1_0_1_0010 = .undefMisc01000010 .al 15 6 13 true false 2
    ∧ decodeArm 0b1110_00010010_0000_0111_1110_0011_0101 = .undefMisc01200030 .al 0 7 14 5
    ∧ decodeArm 0b0101_00010010_1011_0010_1001_01_1_1_0111 = .undefMisc01200050 .pl 11 2 9 true 7
    ∧ decodeArm 0b1110_000101_0_0_1000_1111_0110_0_0_1_1_1011 = .undefMisc01400010 .al false 8 15 6 false true 11
    ∧ decodeArm 0b1110_000001_1_0_0010_1001_0000_1001_0111 = .undefMulSwap00400090 .al true false 2 9 0 7
    ∧ decodeArm 0b1001_00010_0_01_1000_1111_0110_1001_1101 = .undefMulSwap01100090 .ls false 8 15 6 13
    ∧ decodeArm 0b1110_00010_1_1_0_1010_0001_1000_1001_1111 = .undefMulSwap01200090 .al true false 10 1 8 15 := by
  decide

/-- ARM undefined. -/
theorem test_decode_ARM_undefined_b :
    decodeArm 0b1110_00011_0_1_0_1100_0011_1010_1001_0001 = .undefMulSwap01800090 .al false true false 12 3 10 1
    ∧ decodeArm 0b1110_000_1_0_1_0_0_1010_0001_1000_11_0_1_0110 = .undefHalfStore .al true false true false 10 1 8 false 6
    ∧ decodeArm 0b1110_00110_0_00_0100_1011_0010_0_1_0_1_0101 = .undefTstImm .al false 4 11 2 false true false true 5
    ∧ decodeArm 0b0111_011_0_1_0_1_0_0110_1101_0100_0_1_0_1_0000 = .undefArch .vc false true false true false 6 13 4 false true false 0 := by
  decide

/-- ARM data processing, register shifted by register. -/
theorem test_decode_ARM_data_processing_register_shifted_by_register_a :
    decodeArm 0b0111_0000000_0_1110_1101_1100_0_10_1_1011 = .andRegShift .vc false 14 13 12 .asr 11
    ∧ decodeArm 0b1110_0000001_1_1111_1110_1101_0_11_1_1100 = .eorRegShift .al true 15 14 13 .ror 12
    ∧ decodeArm 0b1110_0000010_0_0000_1111_1110_0_00_1_1101 = .subRegShift .al false 0 15 14 .lsl 13
    ∧ decodeArm 0b1010_0000011_1_0001_0000_1111_0_01_1_1110 = .rsbRegShift .ge true 1 0 15 .lsr 14
    ∧ decodeArm 0b1110_0000100_0_0010_0001_0000_0_10_1_1111 = .addRegShift .al false 2 1 0 .asr 15
    ∧ decodeArm 0b1110_0000101_1_0011_0010_0001_0_11_1_0000 = .adcRegShift .al true 3 2 1 .ror 0
    ∧ decodeArm 0b1101_0000110_0_0100_0011_0010_0_00_1_0001 = .sbcRegShift .le false 4 3 2 .lsl 1
    ∧ decodeArm 0b1110_0000111_1_0101_0100_0011_0_01_1_0010 = .rscRegShift .al true 5 4 3 .lsr 2
    ∧ decodeArm 0b0010_00010001_0010_0000_0000_0_11_1_1111 = .tstRegShift .cs 2 0 0 .ror 15
    ∧ decodeArm 0b1110_00010011_0110_0000_0100_0_11_1_0011 = .teqRegShift .al 6 0 4 .ror 3 := by
  decide

/-- ARM data processing, register shifted by register. -/
theorem test_decode_ARM_data_processing_register_shifted_by_register_b :
    decodeArm 0b1000_00010101_1000_0000_0110_0_01_1_0101 = .cmpRegShift .hi 8 0 6 .lsr 5
    ∧ decodeArm 0b1110_00010111_1001_0000_0111_0_10_1_0110 = .cmnRegShift .al 9 0 7 .asr 6
    ∧ decodeArm 0b1110_0001100_1_1111_1110_1101_0_11_1_1100 = .orrRegShift .al true 15 14 13 .ror 12
    ∧ decodeArm 0b1011_0001101_0_0000_1111_1110_0_00_1_1101 = .movRegShift .lt false 0 15 14 .lsl 13
    ∧ decodeArm 0b1110_0001110_1_0001_0000_1111_0_01_1_1110 = .bicRegShift .al true 1 0 15 .lsr 14
    ∧ decodeArm 0b1110_0001111_0_0000_0001_0000_0_10_1_1111 = .mvnRegShift .al false 0 1 0 .asr 15 := by
  decide

/-- ARM branch and exchange. -/
theorem test_decode_ARM_branch_and_exchange :
    decodeArm 0b1110_00010010_111111111111_0001_0011 = .bx .al 4095 3 := by
  decide

/-- ARM multiply. -/
theorem test_decode_ARM_multiply :
    decodeArm 0b0000_0000000_1_0011_0000_0001_1001_0000 = .mul .eq true 3 0 1 0
    ∧ decodeArm 0b1110_0000001_0_0100_0011_0010_1001_0001 = .mla .al false 4 3 2 1 := by
  decide

/-- ARM multiply long. -/
theorem test_decode_ARM_multiply_long :
    decodeArm 0b0011_0000100_0_0110_0101_0100_1001_0011 = .umull .cc false 6 5 4 3
    ∧ decodeArm 0b1110_0000101_1_0111_0110_0101_1001_0100 = .umlal .al true 7 6 5 4
    ∧ decodeArm 0b1110_0000110_0_1000_0111_0110_1001_0101 = .smull .al false 8 7 6 5
    ∧ decodeArm 0b0110_0000111_1_1001_1000_0111_1001_0110 = .smlal .vs true 9 8 7 6 := by
  decide

/-- ARM swap. -/
theorem test_decode_ARM_swap :
    decodeArm 0b1110_00010000_0101_0100_0000_1001_0011 = .swp .al 5 4 0 3
    ∧ decodeArm 0b1110_00010100_0110_0101_0000_1001_0100 = .swpb .al 6 5 0 4 := by
  decide

/-- ARM halfword transfer. -/
theorem test_decode_ARM_halfword_transfer :
    decodeArm 0b1100_000_1_0_0_1_0_1001_1000_0000_1011_0111 = .strhReg .gt true false true 9 8 0 7
    ∧ decodeArm 0b1110_000_0_1_0_0_1_1010_1001_0000_1011_1000 = .ldrhReg .al false true false 10 9 0 8
    ∧ decodeArm 0b1110_000_1_0_1_1_0_1011_1010_0111_1011_1110 = .strhImm .al true false true 11 10 7 14
    ∧ decodeArm 0b0001_000_0_1_1_0_1_1100_1011_0010_1011_1001 = .ldrhImm .ne false true false 12 11 2 9
    ∧ decodeArm 0b1110_000_0_1_0_0_1_1110_1101_0000_1101_1100 = .ldrsbReg .al false true false 14 13 0 12
    ∧ decodeArm 0b0100_000_1_0_0_1_1_1111_1110_0000_1111_1101 = .ldrshReg .mi true false true 15 14 0 13
    ∧ decodeArm 0b1110_000_0_1_1_0_1_0000_1111_1110_1101_0101 = .ldrsbImm .al false true false 0 15 14 5
    ∧ decodeArm 0b1110_000_1_0_1_1_1_0001_0000_1001_1111_0000 = .ldrshImm .al true false true 1 0 9 0 := by
  decide

/-- ARM data processing, immediate. -/
theorem test_decode_ARM_data_processing_immediate_a :
    decodeArm 0b0111_0010000_0_1000_0111_0110_00011101 = .andImm .vc false 8 7 6 29
    ∧ decodeArm 0b1110_0010001_1_1001_1000_0001_10101000 = .eorImm .al true 9 8 1 168
    ∧ decodeArm 0b1110_0010010_0_1010_1001_1100_00110011 = .subImm .al false 10 9 12 51
    ∧ decodeArm 0b1010_0010011_1_1011_1010_0111_10111110 = .rsbImm .ge true 11 10 7 190
    ∧ decodeArm 0b1110_0010100_0_1100_1011_0010_01001001 = .addImm .al false 12 11 2 73
    ∧ decodeArm 0b1110_0010101_1_1101_1100_1101_11010100 = .adcImm .al true 13 12 13 212
    ∧ decodeArm 0b1101_0010110_0_1110_1101_1000_01011111 = .sbcImm .le false 14 13 8 95
    ∧ decodeArm 0b1110_0010111_1_1111_1110_0011_11101010 = .rscImm .al true 15 14 3 234
    ∧ decodeArm 0b0010_00110001_1100_0000_0010_11111001 = .tstImm .cs 12 0 2 249
    ∧ decodeArm 0b1110_00110101_1101_0000_1101_10000100 = .cmpImm .al 13 0 13 132 := by
  decide

/-- ARM data processing, immediate. -/
theorem test_decode_ARM_data_processing_immediate_b :
    decodeArm 0b0101_00110011_1111_0000_0011_10011010 = .teqImm .pl 15 0 3 154
    ∧ decodeArm 0b1110_00110111_0000_0000_1110_00100101 = .cmnImm .al 0 0 14 37
    ∧ decodeArm 0b1110_0011100_0_0110_0101_0000_10110111 = .orrImm .al false 6 5 0 183
    ∧ decodeArm 0b1000_0011101_1_0000_0110_1011_01000010 = .movImm .hi true 0 6 11 66
    ∧ decodeArm 0b1110_0011110_0_1000_0111_0110_11001101 = .bicImm .al false 8 7 6 205
    ∧ decodeArm 0b1110_0011111_1_0000_1000_0001_01011000 = .mvnImm .al true 0 8 1 88 := by
  decide

/-- ARM single data transfer. -/
theorem test_decode_ARM_single_data_transfer_a :
    decodeArm 0b1011_0100_0_000_1010_1001_100111011100 = .strImmPost .lt false 10 9 2524
    ∧ decodeArm 0b1110_0100_1_001_1011_1010_110101100111 = .ldrImmPost .al true 11 10 3431
    ∧ decodeArm 0b1110_0100_0_010_1100_1011_000011110010 = .strtImm .al false 12 11 242
    ∧ decodeArm 0b0000_0100_1_011_1101_1100_010001111101 = .ldrtImm .eq true 13 12 1149
    ∧ decodeArm 0b1110_0100_0_100_1110_1101_100000001000 = .strbImmPost .al false 14 13 2056
    ∧ decodeArm 0b1110_0100_1_101_1111_1110_101110010011 = .ldrbImmPost .al true 15 14 2963
    ∧ decodeArm 0b0011_0100_0_110_0000_1111_111100011110 = .strbtImm .cc false 0 15 3870
    ∧ decodeArm 0b1110_0100_1_111_0001_0000_001010101001 = .ldrbtImm .al true 1 0 681
    ∧ decodeArm 0b1110_0101_0_0_1_0_0111_0110_011000111011 = .strImmPre .al false true 7 6 1595
    ∧ decodeArm 0b0110_0101_1_0_0_1_1000_0111_100111000110 = .ldrImmPre .vs true false 8 7 2502 := by
  decide

/-- ARM single data transfer. -/
theorem test_decode_ARM_single_data_transfer_b :
    decodeArm 0b1110_0101_0_1_1_0_1001_1000_110101010001 = .strbImmPre .al false true 9 8 3409
    ∧ decodeArm 0b1110_0101_1_1_0_1_1010_1001_000011011100 = .ldrbImmPre .al true false 10 9 220
    ∧ decodeArm 0b1001_0110_0_000_0110_0101_00000_10_0_1001 = .strRegPost .ls false 6 5 0 .asr 9
    ∧ decodeArm 0b1110_0110_1_001_0111_0110_01011_11_0_1010 = .ldrRegPost .al true 7 6 11 .ror 10
    ∧ decodeArm 0b1110_0110_0_010_1000_0111_10110_00_0_1011 = .strtReg .al false 8 7 22 .lsl 11
    ∧ decodeArm 0b1100_0110_1_011_1001_1000_00001_01_0_1100 = .ldrtReg .gt true 9 8 1 .lsr 12
    ∧ decodeArm 0b1110_0110_0_100_1010_1001_01100_10_0_1101 = .strbRegPost .al false 10 9 12 .asr 13
    ∧ decodeArm 0b1110_0110_1_101_1011_1010_10111_11_0_1110 = .ldrbRegPost .al true 11 10 23 .ror 14
    ∧ decodeArm 0b0001_0110_0_110_1100_1011_00010_00_0_1111 = .strbtReg .ne false 12 11 2 .lsl 15
    ∧ decodeArm 0b1110_0110_1_111_1101_1100_01101_01_0_0000 = .ldrbtReg .al true 13 12 13 .lsr 0 := by
  decide

/-- ARM single data transfer. -/
theorem test_decode_ARM_single_data_transfer_c :
    decodeArm 0b1110_0111_0_0_1_0_0011_0010_11111_10_0_0110 = .strRegPre .al false true 3 2 31 .asr 6
    ∧ decodeArm 0b0100_0111_1_0_0_1_0100_0011_01010_11_0_0111 = .ldrRegPre .mi true false 4 3 10 .ror 7
    ∧ decodeArm 0b1110_0111_0_1_1_0_0101_0100_10101_00_0_1000 = .strbRegPre .al false true 5 4 21 .lsl 8
    ∧ decodeArm 0b1110_0111_1_1_0_1_0110_0101_00000_01_0_1001 = .ldrbRegPre .al true false 6 5 0 .lsr 9 := by
  decide

/-- ARM block data transfer. -/
theorem test_decode_ARM_block_data_transfer :
    decodeArm 0b1110_100_1_0_1_0_0_0010_0111001001101111 = .stm .al true false true false 2 29295
    ∧ decodeArm 0b1110_100_0_1_0_1_1_0011_0010010111111010 = .ldm .al false true false true 3 9722 := by
  decide

/-- ARM branch. -/
theorem test_decode_ARM_branch :
    decodeArm 0b1010_1010_010011011101100101010100 = .b .ge 5101908
    ∧ decodeArm 0b1110_1011_010011101000110011011111 = .bl .al 5147871 := by
  decide

/-- ARM coprocessor data transfer (undefined). -/
theorem test_decode_ARM_coprocessor_data_transfer_undefined :
    decodeArm 0b1110_110_1_0_1_0_0_0110_1011_0010_10101001 = .stc .al true false true false 6 11 2 169
    ∧ decodeArm 0b1101_110_0_1_0_1_1_0111_0110_1101_00110100 = .ldc .le false true false true 7 6 13 52 := by
  decide

/-- ARM coprocessor data operation (undefined). -/
theorem test_decode_ARM_coprocessor_data_operation_undefined :
    decodeArm 0b1110_1110_0000_0111_1110_0101_100_0_0011 = .cdp .al 0 7 14 5 4 3 := by
  decide

/-- ARM coprocessor register transfer (undefined). -/
theorem test_decode_ARM_coprocessor_register_transfer_undefined :
    decodeArm 0b1110_1110_011_0_0010_1111_1110_101_1_1100 = .mcr .al 3 2 15 14 5 12
    ∧ decodeArm 0b0010_1110_110_1_1101_0000_1001_000_1_0111 = .mrc .cs 6 13 0 9 0 7 := by
  decide

/-- ARM software interrupt. -/
theorem test_decode_ARM_software_interrupt :
    decodeArm 0b1110_1111_010100101100001000100001 = .swi .al 5423649 := by
  decide

/-- Thumb format 1. -/
theorem test_decode_Thumb_format_1 :
    decodeThumb 0b00000_01100_101_100 = .tLslImm 12 5 4
    ∧ decodeThumb 0b00001_10111_110_101 = .tLsrImm 23 6 5
    ∧ decodeThumb 0b00010_00010_111_110 = .tAsrImm 2 7 6 := by
  decide

/-- Thumb format 2. -/
theorem test_decode_Thumb_format_2 :
    decodeThumb 0b0001100_011_010_001 = .tAddReg 3 2 1
    ∧ decodeThumb 0b0001101_100_011_010 = .tSubReg 4 3 2
    ∧ decodeThumb 0b0001110_011_010_001 = .tAddImm3 3 2 1
    ∧ decodeThumb 0b0001111_110_011_010 = .tSubImm3 6 3 2 := by
  decide

/-- Thumb format 3. -/
theorem test_decode_Thumb_format_3 :
    decodeThumb 0b00100_111_10001110 = .tMovImm 7 142
    ∧ decodeThumb 0b00101_000_00011001 = .tCmpImm 0 25
    ∧ decodeThumb 0b00110_001_10100100 = .tAddImm8 1 164
    ∧ decodeThumb 0b00111_010_00101111 = .tSubImm8 2 47 := by
  decide

/-- Thumb format 4. -/
theorem test_decode_Thumb_format_4_a :
    decodeThumb 0b0100000000_011_010 = .tAnd 3 2
    ∧ decodeThumb 0b0100000001_100_011 = .tEor 4 3
    ∧ decodeThumb 0b0100000010_101_100 = .tLslReg 5 4
    ∧ decodeThumb 0b0100000011_110_101 = .tLsrReg 6 5
    ∧ decodeThumb 0b0100000100_111_110 = .tAsrReg 7 6
    ∧ decodeThumb 0b0100000101_000_111 = .tAdc 0 7
    ∧ decodeThumb 0b0100000110_001_000 = .tSbc 1 0
    ∧ decodeThumb 0b0100000111_010_001 = .tRorReg 2 1
    ∧ decodeThumb 0b0100001000_011_010 = .tTst 3 2
    ∧ decodeThumb 0b0100001001_100_011 = .tNeg 4 3 := by
  decide

/-- Thumb format 4. -/
theorem test_decode_Thumb_format_4_b :
    decodeThumb 0b0100001010_101_100 = .tCmpReg 5 4
    ∧ decodeThumb 0b0100001011_110_101 = .tCmn 6 5
    ∧ decodeThumb 0b0100001100_111_110 = .tOrr 7 6
    ∧ decodeThumb 0b0100001101_000_111 = .tMul 0 7
    ∧ decodeThumb 0b0100001110_001_000 = .tBic 1 0
    ∧ decodeThumb 0b0100001111_010_001 = .tMvn 2 1 := by
  decide

/-- Thumb format 5. -/
theorem test_decode_Thumb_format_5 :
    decodeThumb 0b01000100_0_1_101_100 = .tAddHi false true 5 4
    ∧ decodeThumb 0b01000101_1_0_110_101 = .tCmpHi true false 6 5
    ∧ decodeThumb 0b01000110_0_1_111_110 = .tMovHi false true 7 6
    ∧ decodeThumb 0b01000111_1_0_000_111 = .tBx true false 0 7 := by
  decide

/-- Thumb format 6. -/
theorem test_decode_Thumb_format_6 :
    decodeThumb 0b01001_111_10010110 = .tLdrPc 7 150 := by
  decide

/-- Thumb format 7. -/
theorem test_decode_Thumb_format_7 :
    decodeThumb 0b0101000_000_111_110 = .tStrReg 0 7 6
    ∧ decodeThumb 0b0101010_010_001_000 = .tStrbReg 2 1 0
    ∧ decodeThumb 0b0101100_100_011_010 = .tLdrReg 4 3 2
    ∧ decodeThumb 0b0101110_110_101_100 = .tLdrbReg 6 5 4 := by
  decide

/-- Thumb format 8. -/
theorem test_decode_Thumb_format_8 :
    decodeThumb 0b0101001_001_000_111 = .tStrhReg 1 0 7
    ∧ decodeThumb 0b0101011_011_010_001 = .tLdrsbReg 3 2 1
    ∧ decodeThumb 0b0101101_101_100_011 = .tLdrhReg 5 4 3
    ∧ decodeThumb 0b0101111_111_110_101 = .tLdrshReg 7 6 5 := by
  decide

/-- Thumb format 9. -/
theorem test_decode_Thumb_format_9 :
    decodeThumb 0b01100_00100_101_100 = .tStrImm 4 5 4
    ∧ decodeThumb 0b01101_01111_110_101 = .tLdrImm 15 6 5
    ∧ decodeThumb 0b01110_11010_111_110 = .tStrbImm 26 7 6
    ∧ decodeThumb 0b01111_00101_000_111 = .tLdrbImm 5 0 7 := by
  decide

/-- Thumb format 10. -/
theorem test_decode_Thumb_format_10 :
    decodeThumb 0b10000_10000_001_000 = .tStrhImm 16 1 0
    ∧ decodeThumb 0b10001_11011_010_001 = .tLdrhImm 27 2 1 := by
  decide

/-- Thumb format 11. -/
theorem test_decode_Thumb_format_11 :
    decodeThumb 0b10010_110_10111011 = .tStrSp 6 187
    ∧ decodeThumb 0b10011_111_01000110 = .tLdrSp 7 70 := by
  decide

/-- Thumb format 12. -/
theorem test_decode_Thumb_format_12 :
    decodeThumb 0b10100_000_11010001 = .tAddPc 0 209
    ∧ decodeThumb 0b10101_001_01011100 = .tAddSp 1 92 := by
  decide

/-- Thumb format 13. -/
theorem test_decode_Thumb_format_13 :
    decodeThumb 0b101100000_1010010 = .tSpAdd 82
    ∧ decodeThumb 0b101100001_1011101 = .tSpSub 93 := by
  decide

/-- Thumb undefined. -/
theorem test_decode_Thumb_undefined :
    decodeThumb 0b10110001_11101000 = .tUndefB1 232
    ∧ decodeThumb 0b1011100_011111110 = .tUndefB8 254
    ∧ decodeThumb 0b1011_1_0_1_000100010 = .tUndefB2 true false 34
    ∧ decodeThumb 0b11011110_01010110 = .tUndefDE 86
    ∧ decodeThumb 0b11101_01111110111 = .tUndefE8 1015 := by
  decide

/-- Thumb format 14. -/
theorem test_decode_Thumb_format_14 :
    decodeThumb 0b1011010_0_01111010 = .tPush false 122
    ∧ decodeThumb 0b1011110_0_10010000 = .tPop false 144 := by
  decide

/-- Thumb format 15. -/
theorem test_decode_Thumb_format_15 :
    decodeThumb 0b11000_001_10110100 = .tStmia 1 180
    ∧ decodeThumb 0b11001_010_00111111 = .tLdmia 2 63 := by
  decide

/-- Thumb format 16. -/
theorem test_decode_Thumb_format_16 :
    decodeThumb 0b11010_101_10111100 = .tBcondD0 5 188
    ∧ decodeThumb 0b110110_00_01000111 = .tBcondD8 0 71
    ∧ decodeThumb 0b1101110_1_11010010 = .tBcondDC 1 210 := by
  decide

/-- Thumb format 17. -/
theorem test_decode_Thumb_format_17 :
    decodeThumb 0b11011111_11100001 = .tSwi 225 := by
  decide

/-- Thumb format 18. -/
theorem test_decode_Thumb_format_18 :
    decodeThumb 0b11100_00001101100 = .tB 108 := by
  decide

/-- Thumb format 19. -/
theorem test_decode_Thumb_format_19 :
    decodeThumb 0b11110_11110000010 = .tBlFirst 1922
    ∧ decodeThumb 0b11111_01100001101 = .tBlSecond 781 := by
  decide

/-! ## One step on a small state; the expected results are those of 95_test_vectors.md -/

/-- A status register from its word. -/
def psr (w : Word) : Psr := (psrOfWord w).getD Psr.reset

/-- A state with the given CPSR, R15, registers and words of memory, everything else 0. -/
def start (cpsr pc : Word) (regs : List (PhysReg × Word)) (mem : List (Word × Word)) : State :=
  regs.foldl (fun s x => writePhys s x.1 x.2)
    { State.reset with
      cpsr := psr cpsr, pc := pc, mem := mem.foldl (fun m x => memWrite m .word x.1 x.2) State.reset.mem }

/-- One step of the word at R15. -/
def arm (s : State) (w : Nat) : Result := step (s.withFetchWord 32 w)

/-- One step of the halfword at R15. -/
def thumb (s : State) (w : Nat) : Result := step (s.withFetchWord 16 w)

/-- The result is a next state with these registers. -/
def regsAre (r : Result) (l : List (PhysReg × Word)) : Bool :=
  match r with
  | .next t => l.all (fun x => readPhys t x.1 == x.2)
  | _ => false

/-- The result is a next state with this CPSR. -/
def cpsrIs (r : Result) (w : Word) : Bool :=
  match r with
  | .next t => t.cpsr == psr w
  | _ => false

/-- The result is a next state with these words in memory. -/
def wordsAre (r : Result) (l : List (Word × Word)) : Bool :=
  match r with
  | .next t => l.all (fun x => memRead t.mem .word x.1 == x.2)
  | _ => false

/-- The result is this fault. -/
def faults (r : Result) (f : Fault) : Bool :=
  match r with
  | .fault g => g == f
  | _ => false

/-- The result answers a next state. -/
def goesOn (r : Result) : Bool :=
  match r with
  | .next _ => true
  | _ => false

/-- D1: ADDS R0, R1, R2 (signed overflow). -/
theorem test_addImmShift :
    let r := arm (start 0x0000001F 0x08000000 [(.usr 1, 0x7FFFFFFF), (.usr 2, 0x00000001)] []) 0xE0910002
    regsAre r [(.usr 0, 0x80000000), (.pc, 0x08000004)] = true ∧ cpsrIs r 0x9000001F = true := by decide

/-- D1: SUBS R0, R0, #1 (to zero). -/
theorem test_subImm :
    let r := arm (start 0x0000001F 0x08000000 [(.usr 0, 0x00000001)] []) 0xE2500001
    regsAre r [(.usr 0, 0x00000000), (.pc, 0x08000004)] = true ∧ cpsrIs r 0x6000001F = true := by decide

/-- D1: RSBS R0, R1, #0 (negate INT_MIN). -/
theorem test_rsbImm :
    let r := arm (start 0x0000001F 0x08000000 [(.usr 1, 0x80000000)] []) 0xE2710000
    regsAre r [(.usr 0, 0x80000000), (.pc, 0x08000004)] = true ∧ cpsrIs r 0x9000001F = true := by decide

/-- D1: ADCS R0, R1, R1, RRX (C in = 1). -/
theorem test_adcImmShift :
    let r := arm (start 0x2000001F 0x08000000 [(.usr 1, 0x00000003)] []) 0xE0B10061
    regsAre r [(.usr 0, 0x80000005), (.pc, 0x08000004)] = true ∧ cpsrIs r 0x8000001F = true := by decide

/-- D1: MOVS R0, R1, LSR #32 (encoded LSR #0). -/
theorem test_movImmShift :
    let r := arm (start 0x0000001F 0x08000000 [(.usr 1, 0x80000000)] []) 0xE1B00021
    regsAre r [(.pc, 0x08000004)] = true ∧ cpsrIs r 0x6000001F = true := by decide

/-- D1: MOVS R0, R1, ASR R2 (R2 = 0x100: byte 0, carry kept). -/
theorem test_movRegShift :
    let r := arm (start 0x2000001F 0x08000000 [(.usr 1, 0x80000000), (.usr 2, 0x00000100)] []) 0xE1B00251
    regsAre r [(.usr 0, 0x80000000), (.pc, 0x08000004)] = true ∧ cpsrIs r 0xA000001F = true := by decide

/-- D1: MOVS R0, R1, LSL R2 (R2 = 32). -/
theorem test_movRegShift_2 :
    let r := arm (start 0x0000001F 0x08000000 [(.usr 1, 0x00000001), (.usr 2, 0x00000020)] []) 0xE1B00211
    regsAre r [(.pc, 0x08000004)] = true ∧ cpsrIs r 0x6000001F = true := by decide

/-- D1: ANDS R0, R1, #0xFF000000 (rotated immediate, C = bit 31). -/
theorem test_andImm :
    let r := arm (start 0x0000001F 0x08000000 [(.usr 1, 0xFFFFFFFF)] []) 0xE21104FF
    regsAre r [(.usr 0, 0xFF000000), (.pc, 0x08000004)] = true ∧ cpsrIs r 0xA000001F = true := by decide

/-- D1: ADD R0, PC, #0 (PC operand = instr_addr + 8). -/
theorem test_addImm :
    let r := arm (start 0x0000001F 0x08000000 [] []) 0xE28F0000
    regsAre r [(.usr 0, 0x08000008), (.pc, 0x08000004)] = true ∧ cpsrIs r 0x0000001F = true := by decide

/-- D1: ADD R0, PC, R1, LSL R2 (register shift: PC = instr_addr + 12). -/
theorem test_addRegShift :
    let r := arm (start 0x0000001F 0x08000000 [(.usr 1, 0x00000000), (.usr 2, 0x00000000)] []) 0xE08F0211
    regsAre r [(.usr 0, 0x0800000C), (.pc, 0x08000004)] = true ∧ cpsrIs r 0x0000001F = true := by decide

/-- D1: MOV PC, R0 (low bits cleared). -/
theorem test_movImmShift_2 :
    let r := arm (start 0x0000001F 0x08000000 [(.usr 0, 0x08000103)] []) 0xE1A0F000
    regsAre r [(.usr 0, 0x08000103), (.pc, 0x08000100)] = true ∧ cpsrIs r 0x0000001F = true := by decide

/-- D1: TEQ R0, R0 (Z = 1, V kept). -/
theorem test_teqImmShift :
    let r := arm (start 0x1000001F 0x08000000 [(.usr 0, 0x12345678)] []) 0xE1300000
    regsAre r [(.pc, 0x08000004)] = true ∧ cpsrIs r 0x5000001F = true := by decide

/-- D1: CMP R0, #1 with R0 = 0 (borrow: C = 0). -/
theorem test_cmpImm :
    let r := arm (start 0x0000001F 0x08000000 [(.usr 0, 0x00000000)] []) 0xE3500001
    regsAre r [(.pc, 0x08000004)] = true ∧ cpsrIs r 0x8000001F = true := by decide

/-- D1: CMN R0, #1 with R0 = 0xFFFFFFFF. -/
theorem test_cmnImm :
    let r := arm (start 0x0000001F 0x08000000 [(.usr 0, 0xFFFFFFFF)] []) 0xE3700001
    regsAre r [(.pc, 0x08000004)] = true ∧ cpsrIs r 0x6000001F = true := by decide

/-- D1: MOVEQ R0, #1 with Z = 0 (condition fails). -/
theorem test_movImm :
    let r := arm (start 0x0000001F 0x08000000 [(.usr 0, 0x00000007)] []) 0x03A00001
    regsAre r [(.usr 0, 0x00000007), (.pc, 0x08000004)] = true ∧ cpsrIs r 0x0000001F = true := by decide

/-- D1: MVN R0, #0. -/
theorem test_mvnImm :
    let r := arm (start 0x0000001F 0x08000000 [] []) 0xE3E00000
    regsAre r [(.usr 0, 0xFFFFFFFF), (.pc, 0x08000004)] = true ∧ cpsrIs r 0x0000001F = true := by decide

/-- D1: BICS R0, R0, #0x80000000. -/
theorem test_bicImm :
    let r := arm (start 0x0000001F 0x08000000 [(.usr 0, 0x80000000)] []) 0xE3D00102
    regsAre r [(.usr 0, 0x00000000), (.pc, 0x08000004)] = true ∧ cpsrIs r 0x6000001F = true := by decide

/-- D1: ADD R0, R1, R2, LSL PC (Rs = 15). -/
theorem test_addRegShift_2 :
    let r := arm (start 0x0000001F 0x08000000 [] []) 0xE0810F12
    faults r (.unpredictable .rsIsPc) = true := by decide

/-- D2: MRS R0, SPSR in IRQ. -/
theorem test_mrs :
    let r := arm (setSpsr (start 0x00000092 0x08000000 [] []) .irq 0x2000003F) 0xE14F0000
    regsAre r [(.usr 0, 0x2000003F), (.pc, 0x08000004)] = true ∧ cpsrIs r 0x00000092 = true := by decide

/-- D2: MSR CPSR_f, #0xF0000000. -/
theorem test_msrImm :
    let r := arm (start 0x0000001F 0x08000000 [] []) 0xE328F20F
    regsAre r [(.pc, 0x08000004)] = true ∧ cpsrIs r 0xF000001F = true := by decide

/-- D2: MSR CPSR_fc, R0 in User (control byte ignored). -/
theorem test_msrReg :
    let r := arm (start 0x00000010 0x08000000 [(.usr 0, 0x800000DF)] []) 0xE129F000
    regsAre r [(.pc, 0x08000004)] = true ∧ cpsrIs r 0x80000010 = true := by decide

/-- D2: MSR CPSR_c, #0xD2 in Supervisor (to IRQ). -/
theorem test_msrImm_2 :
    let r := arm (start 0x000000D3 0x08000000 [(.irq 0, 0x03007FA0)] []) 0xE321F0D2
    regsAre r [(.pc, 0x08000004)] = true ∧ cpsrIs r 0x000000D2 = true := by decide

/-- D2: MUL R0, R1, R2. -/
theorem test_mul :
    let r := arm (start 0x0000001F 0x08000000 [(.usr 1, 0xFFFFFFFF), (.usr 2, 0xFFFFFFFF)] []) 0xE0000291
    regsAre r [(.usr 0, 0x00000001), (.pc, 0x08000004)] = true ∧ cpsrIs r 0x0000001F = true := by decide

/-- D2: MULS R0, R1, R2 (product 0). -/
theorem test_mul_2 :
    let r := arm (start 0x0000001F 0x08000000 [(.usr 1, 0x00010000), (.usr 2, 0x00010000)] []) 0xE0100291
    regsAre r [(.usr 0, 0x00000000), (.pc, 0x08000004)] = true := by decide

/-- D2: MLA R0, R1, R2, R3. -/
theorem test_mla :
    let r := arm (start 0x0000001F 0x08000000 [(.usr 1, 0x00000003), (.usr 2, 0x00000004), (.usr 3, 0x00000005)] []) 0xE0203291
    regsAre r [(.usr 0, 0x00000011), (.pc, 0x08000004)] = true ∧ cpsrIs r 0x0000001F = true := by decide

/-- D2: UMULL R0, R1, R2, R3. -/
theorem test_umull :
    let r := arm (start 0x0000001F 0x08000000 [(.usr 2, 0xFFFFFFFF), (.usr 3, 0xFFFFFFFF)] []) 0xE0810392
    regsAre r [(.usr 0, 0x00000001), (.usr 1, 0xFFFFFFFE), (.pc, 0x08000004)] = true ∧ cpsrIs r 0x0000001F = true := by decide

/-- D2: SMULL R0, R1, R2, R3. -/
theorem test_smull :
    let r := arm (start 0x0000001F 0x08000000 [(.usr 2, 0xFFFFFFFF), (.usr 3, 0xFFFFFFFF)] []) 0xE0C10392
    regsAre r [(.usr 0, 0x00000001), (.usr 1, 0x00000000), (.pc, 0x08000004)] = true ∧ cpsrIs r 0x0000001F = true := by decide

/-- D2: UMLAL R0, R1, R2, R3. -/
theorem test_umlal :
    let r := arm (start 0x0000001F 0x08000000 [(.usr 0, 0xFFFFFFFF), (.usr 1, 0x00000000), (.usr 2, 0x00000001), (.usr 3, 0x00000001)] []) 0xE0A10392
    regsAre r [(.usr 0, 0x00000000), (.usr 1, 0x00000001), (.pc, 0x08000004)] = true ∧ cpsrIs r 0x0000001F = true := by decide

/-- D2: SMLALS R0, R1, R2, R3. -/
theorem test_smlal :
    let r := arm (start 0x0000001F 0x08000000 [(.usr 0, 0x00000000), (.usr 1, 0x00000000), (.usr 2, 0x80000000), (.usr 3, 0x00000002)] []) 0xE0F10392
    regsAre r [(.usr 1, 0xFFFFFFFF), (.pc, 0x08000004)] = true := by decide

/-- D2: multiply-space reserved 0xE0400090. -/
theorem test_undefMulSwap00400090 :
    let r := arm (start 0x6000001F 0x08000000 [] []) 0xE0400090
    regsAre r [(.pc, 0x00000004), (.und 1, 0x08000004)] = true ∧ cpsrIs r 0x6000009B = true := by decide

/-- D2: SWP R0, R1, [R2]. -/
theorem test_swp :
    let r := arm (start 0x0000001F 0x08000000 [(.usr 1, 0xAABBCCDD), (.usr 2, 0x03000000)] [(0x03000000, 0x11223344)]) 0xE1020091
    regsAre r [(.usr 0, 0x11223344), (.pc, 0x08000004)] = true ∧ wordsAre r [(0x03000000, 0xAABBCCDD)] = true := by decide

/-- D2: SWP R0, R1, [R2] misaligned (R2 = 0x03000001). -/
theorem test_swp_2 :
    let r := arm (start 0x0000001F 0x08000000 [(.usr 1, 0xAABBCCDD), (.usr 2, 0x03000001)] [(0x03000000, 0x11223344)]) 0xE1020091
    regsAre r [(.usr 0, 0x44112233), (.pc, 0x08000004)] = true ∧ wordsAre r [(0x03000000, 0xAABBCCDD)] = true := by decide

/-- D2: SWPB R0, R1, [R2]. -/
theorem test_swpb :
    let r := arm (start 0x0000001F 0x08000000 [(.usr 1, 0xAABBCCDD), (.usr 2, 0x03000002)] [(0x03000000, 0x11223344)]) 0xE1420091
    regsAre r [(.usr 0, 0x00000022), (.pc, 0x08000004)] = true ∧ wordsAre r [(0x03000000, 0x11DD3344)] = true := by decide

/-- D3: LDR R0, [R1, #4]. -/
theorem test_ldrImmPre :
    let r := arm (start 0x0000001F 0x08000000 [(.usr 1, 0x02000000)] [(0x02000004, 0x12345678)]) 0xE5910004
    regsAre r [(.usr 0, 0x12345678), (.pc, 0x08000004)] = true ∧ cpsrIs r 0x0000001F = true := by decide

/-- D3: LDR R0, [R1, #4] misaligned (R1 = 0x02000001). -/
theorem test_ldrImmPre_2 :
    let r := arm (start 0x0000001F 0x08000000 [(.usr 1, 0x02000001)] [(0x02000004, 0x12345678)]) 0xE5910004
    regsAre r [(.usr 0, 0x78123456), (.pc, 0x08000004)] = true ∧ cpsrIs r 0x0000001F = true := by decide

/-- D3: LDR R0, [R1], #-4 (post-index). -/
theorem test_ldrImmPost :
    let r := arm (start 0x0000001F 0x08000000 [(.usr 1, 0x02000008)] [(0x02000008, 0xCAFEF00D)]) 0xE4110004
    regsAre r [(.usr 0, 0xCAFEF00D), (.usr 1, 0x02000004), (.pc, 0x08000004)] = true ∧ cpsrIs r 0x0000001F = true := by decide

/-- D3: LDR R0, [R1, R2, LSL #2]!. -/
theorem test_ldrRegPre :
    let r := arm (start 0x0000001F 0x08000000 [(.usr 1, 0x02000000), (.usr 2, 0x00000003)] [(0x0200000C, 0x0000BEEF)]) 0xE7B10102
    regsAre r [(.usr 0, 0x0000BEEF), (.usr 1, 0x0200000C), (.pc, 0x08000004)] = true ∧ cpsrIs r 0x0000001F = true := by decide

/-- D3: STR R0, [R1, #-4]!. -/
theorem test_strImmPre :
    let r := arm (start 0x0000001F 0x08000000 [(.usr 0, 0xAABBCCDD), (.usr 1, 0x03000010)] []) 0xE5210004
    regsAre r [(.usr 1, 0x0300000C), (.pc, 0x08000004)] = true ∧ wordsAre r [(0x0300000C, 0xAABBCCDD)] = true := by decide

/-- D3: STR PC, [R1] (stores instr_addr + 12). -/
theorem test_strImmPre_2 :
    let r := arm (start 0x0000001F 0x08000000 [(.usr 1, 0x03000000)] []) 0xE581F000
    regsAre r [(.pc, 0x08000004)] = true ∧ wordsAre r [(0x03000000, 0x0800000C)] = true := by decide

/-- D3: LDRB R0, [R1]. -/
theorem test_ldrbImmPre :
    let r := arm (start 0x0000001F 0x08000000 [(.usr 1, 0x02000003)] [(0x02000000, 0x80000000)]) 0xE5D10000
    regsAre r [(.usr 0, 0x00000080), (.pc, 0x08000004)] = true ∧ cpsrIs r 0x0000001F = true := by decide

/-- D3: STRB R0, [R1, #1]. -/
theorem test_strbImmPre :
    let r := arm (start 0x0000001F 0x08000000 [(.usr 0, 0x12345678), (.usr 1, 0x03000000)] []) 0xE5C10001
    regsAre r [(.pc, 0x08000004)] = true ∧ wordsAre r [(0x03000000, 0x00007800)] = true := by decide

/-- D3: LDRT R0, [R1], #4. -/
theorem test_ldrtImm :
    let r := arm (start 0x000000D3 0x08000000 [(.usr 1, 0x02000000)] [(0x02000000, 0x01020304)]) 0xE4B10004
    regsAre r [(.usr 0, 0x01020304), (.usr 1, 0x02000004), (.pc, 0x08000004)] = true ∧ cpsrIs r 0x000000D3 = true := by decide

/-- D3: LDRH R0, [R1, #2]. -/
theorem test_ldrhImm :
    let r := arm (start 0x0000001F 0x08000000 [(.usr 1, 0x02000000)] [(0x02000000, 0xBEEF0000)]) 0xE1D100B2
    regsAre r [(.usr 0, 0x0000BEEF), (.pc, 0x08000004)] = true ∧ cpsrIs r 0x0000001F = true := by decide

/-- D3: LDRH R0, [R1, #2] odd (R1 = 0x02000001). -/
theorem test_ldrhImm_2 :
    let r := arm (start 0x0000001F 0x08000000 [(.usr 1, 0x02000001)] [(0x02000000, 0xBEEF0000)]) 0xE1D100B2
    regsAre r [(.usr 0, 0xEF0000BE), (.pc, 0x08000004)] = true ∧ cpsrIs r 0x0000001F = true := by decide

/-- D3: LDRSH R0, [R1] odd (R1 = 0x02000001). -/
theorem test_ldrshImm :
    let r := arm (start 0x0000001F 0x08000000 [(.usr 1, 0x02000001)] [(0x02000000, 0x00008001)]) 0xE1D100F0
    regsAre r [(.usr 0, 0xFFFFFF80), (.pc, 0x08000004)] = true ∧ cpsrIs r 0x0000001F = true := by decide

/-- D3: LDRSH R0, [R1, R2]. -/
theorem test_ldrshReg :
    let r := arm (start 0x0000001F 0x08000000 [(.usr 1, 0x02000000), (.usr 2, 0x00000000)] [(0x02000000, 0x00008001)]) 0xE19100F2
    regsAre r [(.usr 0, 0xFFFF8001), (.pc, 0x08000004)] = true ∧ cpsrIs r 0x0000001F = true := by decide

/-- D3: LDRSB R0, [R1, #1]. -/
theorem test_ldrsbImm :
    let r := arm (start 0x0000001F 0x08000000 [(.usr 1, 0x02000000)] [(0x02000000, 0x0000FE00)]) 0xE1D100D1
    regsAre r [(.usr 0, 0xFFFFFFFE), (.pc, 0x08000004)] = true ∧ cpsrIs r 0x0000001F = true := by decide

/-- D3: STRH R0, [R1, #2]. -/
theorem test_strhImm :
    let r := arm (start 0x0000001F 0x08000000 [(.usr 0, 0x1234ABCD), (.usr 1, 0x03000000)] []) 0xE1C100B2
    regsAre r [(.pc, 0x08000004)] = true ∧ wordsAre r [(0x03000000, 0xABCD0000)] = true := by decide

/-- D3: halfword-space store with SH = 11 (0xE1C000F0). -/
theorem test_undefHalfStore :
    let r := arm (start 0x0000001F 0x08000000 [] []) 0xE1C000F0
    regsAre r [(.pc, 0x00000004), (.und 1, 0x08000004)] = true ∧ cpsrIs r 0x0000009B = true := by decide

/-- D3: LDMIA R0!, <R1-R3>. -/
theorem test_ldm :
    let r := arm (start 0x0000001F 0x08000000 [(.usr 0, 0x02000000)] [(0x02000000, 0x00000001), (0x02000004, 0x00000002), (0x02000008, 0x00000003)]) 0xE8B0000E
    regsAre r [(.usr 0, 0x0200000C), (.usr 1, 0x00000001), (.usr 2, 0x00000002), (.usr 3, 0x00000003), (.pc, 0x08000004)] = true ∧ cpsrIs r 0x0000001F = true := by decide

/-- D3: LDMIB R0, <R1, R2>. -/
theorem test_ldm_2 :
    let r := arm (start 0x0000001F 0x08000000 [(.usr 0, 0x02000000)] [(0x02000004, 0x00000004), (0x02000008, 0x00000005)]) 0xE9900006
    regsAre r [(.usr 1, 0x00000004), (.usr 2, 0x00000005), (.pc, 0x08000004)] = true ∧ cpsrIs r 0x0000001F = true := by decide

/-- D3: STMDB SP!, <R4, LR>. -/
theorem test_stm :
    let r := arm (start 0x0000001F 0x08000000 [(.usr 13, 0x03007F00), (.usr 4, 0x44444444), (.usr 14, 0x08000ABC)] []) 0xE92D4010
    regsAre r [(.usr 13, 0x03007EF8), (.pc, 0x08000004)] = true ∧ wordsAre r [(0x03007EF8, 0x44444444), (0x03007EFC, 0x08000ABC)] = true := by decide

/-- D3: STMIA R0!, <R0, R1> (base lowest: original). -/
theorem test_stm_2 :
    let r := arm (start 0x0000001F 0x08000000 [(.usr 0, 0x03000000), (.usr 1, 0x11111111)] []) 0xE8A00003
    regsAre r [(.usr 0, 0x03000008), (.pc, 0x08000004)] = true ∧ wordsAre r [(0x03000000, 0x03000000), (0x03000004, 0x11111111)] = true := by decide

/-- D4: B .. -/
theorem test_b :
    let r := arm (start 0x0000001F 0x08000000 [] []) 0xEAFFFFFE
    regsAre r [(.usr 0, 0x00000000)] = true ∧ cpsrIs r 0x0000001F = true := by decide

/-- D4: BL -8 (backwards). -/
theorem test_bl :
    let r := arm (start 0x0000001F 0x08000008 [] []) 0xEBFFFFFC
    regsAre r [(.usr 14, 0x0800000C), (.pc, 0x08000000)] = true ∧ cpsrIs r 0x0000001F = true := by decide

/-- D4: BX R0 to Thumb (R0 = 0x08000201). -/
theorem test_bx :
    let r := arm (start 0x0000001F 0x08000000 [(.usr 0, 0x08000201)] []) 0xE12FFF10
    regsAre r [(.pc, 0x08000200)] = true ∧ cpsrIs r 0x0000003F = true := by decide

/-- D4: BX R0 to ARM with bit 1 set (R0 = 0x08000206). -/
theorem test_bx_2 :
    let r := arm (start 0x0000001F 0x08000000 [(.usr 0, 0x08000206)] []) 0xE12FFF10
    regsAre r [(.usr 0, 0x08000206), (.pc, 0x08000204)] = true ∧ cpsrIs r 0x0000001F = true := by decide

/-- D4: SWI 0x060000 in User. -/
theorem test_swi :
    let r := arm (start 0x00000010 0x08000200 [] []) 0xEF060000
    regsAre r [(.pc, 0x00000008), (.svc 1, 0x08000204)] = true ∧ cpsrIs r 0x00000093 = true := by decide

/-- D4: LDC p1, c0, [R0] (coprocessor: undefined). -/
theorem test_ldc :
    let r := arm (start 0x6000001F 0x08000300 [] []) 0xED901000
    regsAre r [(.pc, 0x00000004), (.und 1, 0x08000304)] = true ∧ cpsrIs r 0x6000009B = true := by decide

/-- D4: MCR p15, 0, R0, c1, c0, 0 (undefined). -/
theorem test_mcr :
    let r := arm (start 0x0000001F 0x08000000 [] []) 0xEE010F10
    regsAre r [(.pc, 0x00000004), (.und 1, 0x08000004)] = true ∧ cpsrIs r 0x0000009B = true := by decide

/-- D4: 0xE7F000F0 (architecturally undefined space). -/
theorem test_undefArch :
    let r := arm (start 0x0000001F 0x08000000 [] []) 0xE7F000F0
    regsAre r [(.pc, 0x00000004), (.und 1, 0x08000004)] = true ∧ cpsrIs r 0x0000009B = true := by decide

/-- D5: LSL R0, R1, #2. -/
theorem test_tLslImm :
    let r := thumb (start 0x0000003F 0x08000000 [(.usr 1, 0x40000001)] []) 0x0088
    regsAre r [(.usr 0, 0x00000004), (.pc, 0x08000002)] = true ∧ cpsrIs r 0x2000003F = true := by decide

/-- D5: LSR R0, R1, #0 (= #32). -/
theorem test_tLsrImm :
    let r := thumb (start 0x0000003F 0x08000000 [(.usr 1, 0x80000000)] []) 0x0808
    regsAre r [(.usr 0, 0x00000000), (.pc, 0x08000002)] = true ∧ cpsrIs r 0x6000003F = true := by decide

/-- D5: ASR R0, R1, #0 (= #32). -/
theorem test_tAsrImm :
    let r := thumb (start 0x0000003F 0x08000000 [(.usr 1, 0x80000000)] []) 0x1008
    regsAre r [(.usr 0, 0xFFFFFFFF), (.pc, 0x08000002)] = true ∧ cpsrIs r 0xA000003F = true := by decide

/-- D5: ADD R0, R1, R2. -/
theorem test_tAddReg :
    let r := thumb (start 0x0000003F 0x08000000 [(.usr 1, 0xFFFFFFFF), (.usr 2, 0x00000001)] []) 0x1888
    regsAre r [(.usr 0, 0x00000000), (.pc, 0x08000002)] = true ∧ cpsrIs r 0x6000003F = true := by decide

/-- D5: SUB R0, R1, #1. -/
theorem test_tSubImm3 :
    let r := thumb (start 0x0000003F 0x08000000 [(.usr 1, 0x80000000)] []) 0x1E48
    regsAre r [(.usr 0, 0x7FFFFFFF), (.pc, 0x08000002)] = true ∧ cpsrIs r 0x3000003F = true := by decide

/-- D5: ADD R0, R1, #0 (low MOV: C = V = 0). -/
theorem test_tAddImm3 :
    let r := thumb (start 0x3000003F 0x08000000 [(.usr 1, 0x00000005)] []) 0x1C08
    regsAre r [(.usr 0, 0x00000005), (.pc, 0x08000002)] = true ∧ cpsrIs r 0x0000003F = true := by decide

/-- D5: MOV R0, #0. -/
theorem test_tMovImm :
    let r := thumb (start 0xB000003F 0x08000000 [] []) 0x2000
    regsAre r [(.usr 0, 0x00000000), (.pc, 0x08000002)] = true ∧ cpsrIs r 0x7000003F = true := by decide

/-- D5: CMP R0, #1 (R0 = 0). -/
theorem test_tCmpImm :
    let r := thumb (start 0x0000003F 0x08000000 [] []) 0x2801
    regsAre r [(.pc, 0x08000002)] = true ∧ cpsrIs r 0x8000003F = true := by decide

/-- D5: ADD R0, #255. -/
theorem test_tAddImm8 :
    let r := thumb (start 0x0000003F 0x08000000 [(.usr 0, 0x7FFFFF01)] []) 0x30FF
    regsAre r [(.usr 0, 0x80000000), (.pc, 0x08000002)] = true ∧ cpsrIs r 0x9000003F = true := by decide

/-- D5: SUB R0, #1 (R0 = 0). -/
theorem test_tSubImm8 :
    let r := thumb (start 0x0000003F 0x08000000 [] []) 0x3801
    regsAre r [(.usr 0, 0xFFFFFFFF), (.pc, 0x08000002)] = true ∧ cpsrIs r 0x8000003F = true := by decide

/-- D5: LSL R0, R1 (R1 = 32). -/
theorem test_tLslReg :
    let r := thumb (start 0x0000003F 0x08000000 [(.usr 0, 0x00000001), (.usr 1, 0x00000020)] []) 0x4088
    regsAre r [(.usr 0, 0x00000000), (.pc, 0x08000002)] = true ∧ cpsrIs r 0x6000003F = true := by decide

/-- D5: LSR R0, R1 (R1 = 33). -/
theorem test_tLsrReg :
    let r := thumb (start 0x2000003F 0x08000000 [(.usr 0, 0x80000000), (.usr 1, 0x00000021)] []) 0x40C8
    regsAre r [(.usr 0, 0x00000000), (.pc, 0x08000002)] = true ∧ cpsrIs r 0x4000003F = true := by decide

/-- D5: ASR R0, R1 (R1 = 0: unchanged, C kept). -/
theorem test_tAsrReg :
    let r := thumb (start 0x2000003F 0x08000000 [(.usr 0, 0x80000000), (.usr 1, 0x00000000)] []) 0x4108
    regsAre r [(.pc, 0x08000002)] = true ∧ cpsrIs r 0xA000003F = true := by decide

/-- D5: ROR R0, R1 (R1 = 32). -/
theorem test_tRorReg :
    let r := thumb (start 0x0000003F 0x08000000 [(.usr 0, 0x80000001), (.usr 1, 0x00000020)] []) 0x41C8
    regsAre r [(.pc, 0x08000002)] = true ∧ cpsrIs r 0xA000003F = true := by decide

/-- D5: ADC R0, R1 (C = 1). -/
theorem test_tAdc :
    let r := thumb (start 0x2000003F 0x08000000 [(.usr 0, 0xFFFFFFFF), (.usr 1, 0x00000000)] []) 0x4148
    regsAre r [(.usr 0, 0x00000000), (.pc, 0x08000002)] = true ∧ cpsrIs r 0x6000003F = true := by decide

/-- D5: SBC R0, R1 (C = 0). -/
theorem test_tSbc :
    let r := thumb (start 0x0000003F 0x08000000 [(.usr 0, 0x00000005), (.usr 1, 0x00000002)] []) 0x4188
    regsAre r [(.usr 0, 0x00000002), (.pc, 0x08000002)] = true ∧ cpsrIs r 0x2000003F = true := by decide

/-- D5: NEG R0, R1 (R1 = 0x80000000). -/
theorem test_tNeg :
    let r := thumb (start 0x0000003F 0x08000000 [(.usr 1, 0x80000000)] []) 0x4248
    regsAre r [(.usr 0, 0x80000000), (.pc, 0x08000002)] = true ∧ cpsrIs r 0x9000003F = true := by decide

/-- D5: CMN R0, R1. -/
theorem test_tCmn :
    let r := thumb (start 0x0000003F 0x08000000 [(.usr 0, 0x00000001), (.usr 1, 0xFFFFFFFF)] []) 0x42C8
    regsAre r [(.pc, 0x08000002)] = true ∧ cpsrIs r 0x6000003F = true := by decide

/-- D5: MUL R0, R1. -/
theorem test_tMul :
    let r := thumb (start 0x0000003F 0x08000000 [(.usr 0, 0x00000006), (.usr 1, 0x00000007)] []) 0x4348
    regsAre r [(.usr 0, 0x0000002A), (.pc, 0x08000002)] = true := by decide

/-- D5: BIC R0, R1. -/
theorem test_tBic :
    let r := thumb (start 0x0000003F 0x08000000 [(.usr 0, 0x000000FF), (.usr 1, 0x0000000F)] []) 0x4388
    regsAre r [(.usr 0, 0x000000F0), (.pc, 0x08000002)] = true ∧ cpsrIs r 0x0000003F = true := by decide

/-- D5: MVN R0, R1. -/
theorem test_tMvn :
    let r := thumb (start 0x0000003F 0x08000000 [(.usr 1, 0x00000000)] []) 0x43C8
    regsAre r [(.usr 0, 0xFFFFFFFF), (.pc, 0x08000002)] = true ∧ cpsrIs r 0x8000003F = true := by decide

/-- D5: ADD R0, R8 (high register, no flags). -/
theorem test_tAddHi :
    let r := thumb (start 0x0000003F 0x08000000 [(.usr 0, 0x00000001), (.usr 8, 0xFFFFFFFF)] []) 0x4440
    regsAre r [(.usr 0, 0x00000000), (.pc, 0x08000002)] = true ∧ cpsrIs r 0x0000003F = true := by decide

/-- D5: CMP R8, R0 (high CMP writes flags). -/
theorem test_tCmpHi :
    let r := thumb (start 0x0000003F 0x08000000 [(.usr 0, 0x00000001), (.usr 8, 0x00000001)] []) 0x4580
    regsAre r [(.pc, 0x08000002)] = true ∧ cpsrIs r 0x6000003F = true := by decide

/-- D5: MOV PC, LR (R14 = 0x08000301). -/
theorem test_tMovHi :
    let r := thumb (start 0x0000003F 0x08000000 [(.usr 14, 0x08000301)] []) 0x46F7
    regsAre r [(.usr 0, 0x00000000), (.pc, 0x08000300)] = true ∧ cpsrIs r 0x0000003F = true := by decide

/-- D5: MOV R0, R1 in format 5 (two low registers). -/
theorem test_tMovHi_2 :
    let r := thumb (start 0x0000003F 0x08000000 [] []) 0x4608
    faults r (.unpredictable .thumbHireg) = true := by decide

/-- D5: BX R0 to ARM (R0 = 0x08000200). -/
theorem test_tBx :
    let r := thumb (start 0x0000003F 0x08000000 [(.usr 0, 0x08000200)] []) 0x4700
    regsAre r [(.pc, 0x08000200)] = true ∧ cpsrIs r 0x0000001F = true := by decide

/-- D5: BX PC at 0x08000002 (to ARM at 0x08000004). -/
theorem test_tBx_2 :
    let r := thumb (start 0x0000003F 0x08000002 [] []) 0x4778
    regsAre r [(.pc, 0x08000004)] = true ∧ cpsrIs r 0x0000001F = true := by decide

/-- D6: LDR R0, [PC, #4] at 0x08000002. -/
theorem test_tLdrPc :
    let r := thumb (start 0x0000003F 0x08000002 [] [(0x8000008, 0xbeef0000), (0x800000c, 0xdead)]) 0x4801
    regsAre r [(.usr 0, 0xBEEF0000), (.pc, 0x08000004)] = true ∧ cpsrIs r 0x0000003F = true := by decide

/-- D6: STR R0, [R1, R2]. -/
theorem test_tStrReg :
    let r := thumb (start 0x0000003F 0x08000000 [(.usr 0, 0xCAFEBABE), (.usr 1, 0x03000000), (.usr 2, 0x00000004)] []) 0x5088
    regsAre r [(.pc, 0x08000002)] = true ∧ wordsAre r [(0x03000004, 0xCAFEBABE)] = true := by decide

/-- D6: LDR R0, [R1, R2] misaligned (address 0x02000001). -/
theorem test_tLdrReg :
    let r := thumb (start 0x0000003F 0x08000000 [(.usr 1, 0x02000000), (.usr 2, 0x00000001)] [(0x02000000, 0x11223344)]) 0x5888
    regsAre r [(.usr 0, 0x44112233), (.pc, 0x08000002)] = true ∧ cpsrIs r 0x0000003F = true := by decide

/-- D6: LDRSB R0, [R1, R2]. -/
theorem test_tLdrsbReg :
    let r := thumb (start 0x0000003F 0x08000000 [(.usr 1, 0x02000000), (.usr 2, 0x00000000)] [(0x02000000, 0x00000080)]) 0x5688
    regsAre r [(.usr 0, 0xFFFFFF80), (.pc, 0x08000002)] = true ∧ cpsrIs r 0x0000003F = true := by decide

/-- D6: LDRSH R0, [R1, R2] odd address. -/
theorem test_tLdrshReg :
    let r := thumb (start 0x0000003F 0x08000000 [(.usr 1, 0x02000001), (.usr 2, 0x00000000)] [(0x02000000, 0x00008001)]) 0x5E88
    regsAre r [(.usr 0, 0xFFFFFF80), (.pc, 0x08000002)] = true ∧ cpsrIs r 0x0000003F = true := by decide

/-- D6: LDRH R0, [R1, R2] odd address. -/
theorem test_tLdrhReg :
    let r := thumb (start 0x0000003F 0x08000000 [(.usr 1, 0x02000001), (.usr 2, 0x00000000)] [(0x02000000, 0x0000BEEF)]) 0x5A88
    regsAre r [(.usr 0, 0xEF0000BE), (.pc, 0x08000002)] = true ∧ cpsrIs r 0x0000003F = true := by decide

/-- D6: STRB R0, [R1, #1]. -/
theorem test_tStrbImm :
    let r := thumb (start 0x0000003F 0x08000000 [(.usr 0, 0x000001AB), (.usr 1, 0x03000000)] []) 0x7048
    regsAre r [(.pc, 0x08000002)] = true ∧ wordsAre r [(0x03000000, 0x0000AB00)] = true := by decide

/-- D6: LDR R0, [R1, #4] (R1 = 0x02000002). -/
theorem test_tLdrImm :
    let r := thumb (start 0x0000003F 0x08000000 [(.usr 1, 0x02000002)] [(0x02000004, 0x11223344)]) 0x6848
    regsAre r [(.usr 0, 0x33441122), (.pc, 0x08000002)] = true ∧ cpsrIs r 0x0000003F = true := by decide

/-- D6: STRH R0, [R1, #2]. -/
theorem test_tStrhImm :
    let r := thumb (start 0x0000003F 0x08000000 [(.usr 0, 0x1234ABCD), (.usr 1, 0x03000000)] []) 0x8048
    regsAre r [(.pc, 0x08000002)] = true ∧ wordsAre r [(0x03000000, 0xABCD0000)] = true := by decide

/-- D6: STR R0, [SP, #4] (in IRQ: SP is R13_irq). -/
theorem test_tStrSp :
    let r := thumb (start 0x00000032 0x08000000 [(.usr 0, 0x00000077), (.irq 0, 0x03007FA0)] []) 0x9001
    regsAre r [(.pc, 0x08000002)] = true ∧ wordsAre r [(0x03007FA4, 0x00000077)] = true := by decide

/-- D6: ADD R0, PC, #4 at 0x08000002. -/
theorem test_tAddPc :
    let r := thumb (start 0x0000003F 0x08000002 [] []) 0xA001
    regsAre r [(.usr 0, 0x08000008), (.pc, 0x08000004)] = true ∧ cpsrIs r 0x0000003F = true := by decide

/-- D6: ADD R0, SP, #4. -/
theorem test_tAddSp :
    let r := thumb (start 0x0000003F 0x08000000 [(.usr 13, 0x03007F00)] []) 0xA801
    regsAre r [(.usr 0, 0x03007F04), (.pc, 0x08000002)] = true ∧ cpsrIs r 0x0000003F = true := by decide

/-- D6: SUB SP, #16. -/
theorem test_tSpSub :
    let r := thumb (start 0x0000003F 0x08000000 [(.usr 13, 0x03007F00)] []) 0xB084
    regsAre r [(.usr 13, 0x03007EF0), (.pc, 0x08000002)] = true ∧ cpsrIs r 0x0000003F = true := by decide

/-- D6: PUSH <R4, LR>. -/
theorem test_tPush :
    let r := thumb (start 0x0000003F 0x08000000 [(.usr 13, 0x03007F00), (.usr 4, 0x44444444), (.usr 14, 0x08000123)] []) 0xB510
    regsAre r [(.usr 13, 0x03007EF8), (.pc, 0x08000002)] = true ∧ wordsAre r [(0x03007EF8, 0x44444444), (0x03007EFC, 0x08000123)] = true := by decide

/-- D6: POP <R4, PC> (stays Thumb). -/
theorem test_tPop :
    let r := thumb (start 0x0000003F 0x08000000 [(.usr 13, 0x03007EF8)] [(0x03007EF8, 0x11111111), (0x03007EFC, 0x08000301)]) 0xBD10
    regsAre r [(.usr 4, 0x11111111), (.usr 13, 0x03007F00), (.pc, 0x08000300)] = true ∧ cpsrIs r 0x0000003F = true := by decide

/-- D6: PUSH <> (empty list). -/
theorem test_tPush_2 :
    let r := thumb (start 0x0000003F 0x08000100 [(.usr 13, 0x03007F00)] []) 0xB400
    regsAre r [(.usr 13, 0x03007EC0), (.pc, 0x08000102)] = true ∧ wordsAre r [(0x03007EC0, 0x08000106)] = true := by decide

/-- D6: POP <> (empty list). -/
theorem test_tPop_2 :
    let r := thumb (start 0x0000003F 0x08000000 [(.usr 13, 0x03007F00)] [(0x03007F00, 0x08000401)]) 0xBC00
    regsAre r [(.usr 13, 0x03007F40), (.pc, 0x08000400)] = true ∧ cpsrIs r 0x0000003F = true := by decide

/-- D6: STMIA R0!, <R1, R2>. -/
theorem test_tStmia :
    let r := thumb (start 0x0000003F 0x08000000 [(.usr 0, 0x03000000), (.usr 1, 0x00000001), (.usr 2, 0x00000002)] []) 0xC006
    regsAre r [(.usr 0, 0x03000008), (.pc, 0x08000002)] = true ∧ wordsAre r [(0x03000000, 0x00000001), (0x03000004, 0x00000002)] = true := by decide

/-- D6: STMIA R1!, <R0, R1> (base not lowest). -/
theorem test_tStmia_2 :
    let r := thumb (start 0x0000003F 0x08000000 [(.usr 0, 0x22222222), (.usr 1, 0x03000000)] []) 0xC103
    regsAre r [(.usr 1, 0x03000008), (.pc, 0x08000002)] = true ∧ wordsAre r [(0x03000000, 0x22222222), (0x03000004, 0x03000008)] = true := by decide

/-- D6: LDMIA R0!, <R0, R1> (base in list). -/
theorem test_tLdmia :
    let r := thumb (start 0x0000003F 0x08000000 [(.usr 0, 0x02000000)] [(0x02000000, 0xAAAA0000), (0x02000004, 0xBBBB0000)]) 0xC803
    regsAre r [(.usr 0, 0xAAAA0000), (.usr 1, 0xBBBB0000), (.pc, 0x08000002)] = true ∧ cpsrIs r 0x0000003F = true := by decide

/-- D6: LDMIA R0!, <> (empty list). -/
theorem test_tLdmia_2 :
    let r := thumb (start 0x0000003F 0x08000000 [(.usr 0, 0x02000000)] [(0x02000000, 0x08000501)]) 0xC800
    regsAre r [(.usr 0, 0x02000040), (.pc, 0x08000500)] = true ∧ cpsrIs r 0x0000003F = true := by decide

/-- D7: BEQ . with Z = 1. -/
theorem test_tBcondD0 :
    let r := thumb (start 0x4000003F 0x08000000 [] []) 0xD0FE
    regsAre r [(.usr 0, 0x00000000)] = true ∧ cpsrIs r 0x4000003F = true := by decide

/-- D7: BEQ +4 with Z = 0 (not taken). -/
theorem test_tBcondD0_2 :
    let r := thumb (start 0x0000003F 0x08000000 [] []) 0xD000
    regsAre r [(.usr 0, 0x00000000), (.pc, 0x08000002)] = true ∧ cpsrIs r 0x0000003F = true := by decide

/-- D7: BLT -4 with N = 1, V = 0. -/
theorem test_tBcondD8 :
    let r := thumb (start 0x8000003F 0x08000010 [] []) 0xDBFC
    regsAre r [(.usr 0, 0x00000000), (.pc, 0x0800000C)] = true ∧ cpsrIs r 0x8000003F = true := by decide

/-- D7: B<cond> with cond = 1110 (0xDE00: undefined). -/
theorem test_tUndefDE :
    let r := thumb (start 0x0000003F 0x08000000 [] []) 0xDE00
    regsAre r [(.pc, 0x00000004), (.und 1, 0x08000002)] = true ∧ cpsrIs r 0x0000009B = true := by decide

/-- D7: SWI 6 (Thumb) in User. -/
theorem test_tSwi :
    let r := thumb (start 0x00000030 0x08000100 [] []) 0xDF06
    regsAre r [(.pc, 0x00000008), (.svc 1, 0x08000102)] = true ∧ cpsrIs r 0x00000093 = true := by decide

/-- D7: B . (Thumb). -/
theorem test_tB :
    let r := thumb (start 0x0000003F 0x08000000 [] []) 0xE7FE
    regsAre r [(.usr 0, 0x00000000)] = true ∧ cpsrIs r 0x0000003F = true := by decide

/-- D7: BL first half 0xF7FF (negative high part) alone. -/
theorem test_tBlFirst :
    let r := thumb (start 0x0000003F 0x08000000 [] []) 0xF7FF
    regsAre r [(.usr 14, 0x07FFF004), (.pc, 0x08000002)] = true ∧ cpsrIs r 0x0000003F = true := by decide

/-- D7: BL second half alone (0xF801, LR = 0x08000100). -/
theorem test_tBlSecond :
    let r := thumb (start 0x0000003F 0x08000000 [(.usr 14, 0x08000100)] []) 0xF801
    regsAre r [(.usr 14, 0x08000003), (.pc, 0x08000102)] = true ∧ cpsrIs r 0x0000003F = true := by decide

/-- D7: 0xE800 (BLX suffix space: undefined). -/
theorem test_tUndefE8 :
    let r := thumb (start 0x0000003F 0x08000000 [] []) 0xE800
    regsAre r [(.pc, 0x00000004), (.und 1, 0x08000002)] = true ∧ cpsrIs r 0x0000009B = true := by decide

/-- D7: 0xB100 (undefined high byte). -/
theorem test_tUndefB1 :
    let r := thumb (start 0x0000003F 0x08000000 [] []) 0xB100
    regsAre r [(.pc, 0x00000004), (.und 1, 0x08000002)] = true ∧ cpsrIs r 0x0000009B = true := by decide

/-! ## Cycles and the entry point (95_test_vectors.md, parts A6, A8 and F) -/

/-- The residual budget a call returns. -/
def residual (r : CallResult) : Option Int :=
  match r with
  | .next (b, _) => some b
  | _ => none

/-- A call during which the host changes nothing. -/
def call (b : Int) (s : State) : CallResult := execute (fun _ => sameInput s) b s

/-- F: MOV R0, #1 costs its fetch, 1. -/
theorem test_cycles_mov : residual (call 1 ((start 0x1F 0x08000000 [] []).withFetchWord 32 0xE3A00001)) = some 0 := by
  decide

/-- F: LDR R0, [R1] costs 1S + 1N + 1I; a step is never cut short. -/
theorem test_cycles_ldr : residual (call 1 ((start 0x1F 0x08000000 [] []).withFetchWord 32 0xE5910000)) = some (-2) := by
  decide

/-- F: LDR PC, [R0] costs 4. -/
theorem test_cycles_ldr_pc :
    residual (call 1 ((start 0x1F 0x08000000 [(.usr 0, 0x02000000)] []).withFetchWord 32 0xE590F000)) = some (-3) := by
  decide

/-- F: LDMIA R0, {R1-R3} costs 5. -/
theorem test_cycles_ldm :
    residual (call 1 ((start 0x1F 0x08000000 [(.usr 0, 0x02000000)] []).withFetchWord 32 0xE890000E)) = some (-4) := by
  decide

/-- F: MUL costs 2 with x[Rs] = 5 and 5 with x[Rs] = 0x12345678. -/
theorem test_cycles_mul :
    residual (call 1 ((start 0x1F 0x08000000 [(.usr 2, 5)] []).withFetchWord 32 0xE0000291)) = some (-1)
    ∧ residual (call 1 ((start 0x1F 0x08000000 [(.usr 2, 0x12345678)] []).withFetchWord 32 0xE0000291)) = some (-4) := by
  decide

/-- F: a register-specified shift costs 2, a store 2, a branch 2. -/
theorem test_cycles_others :
    residual (call 1 ((start 0x1F 0x08000000 [] []).withFetchWord 32 0xE0810312)) = some (-1)
    ∧ residual (call 1 ((start 0x1F 0x08000000 [(.usr 1, 0x03000000)] []).withFetchWord 32 0xE5810000)) = some (-1)
    ∧ residual (call 1 ((start 0x1F 0x08000000 [] []).withFetchWord 32 0xEA00003E)) = some (-1) := by
  decide

/-- F: a break, and a breakpoint at R15, return the whole budget. -/
theorem test_break :
    residual (call 100 (requestBreak (start 0x1F 0x08000000 [] []))) = some 100
    ∧ residual (call 100 (setBreakpoints (start 0x1F 0x08000000 [] []) [0x08000000])) = some 100 := by
  decide

/-- F: IRQ entry costs 2; E: it goes to 0x18 with R14_irq = R15 + 4, also in Thumb state. -/
theorem test_irq :
    residual (call 2 (driveIrq (start 0x1F 0x08000100 [] []) true)) = some 0
    ∧ regsAre (step (driveIrq (start 0x6000001F 0x08000100 [] []) true)) [(.irq 1, 0x08000104), (.pc, 0x18)] = true
    ∧ cpsrIs (step (driveIrq (start 0x6000001F 0x08000100 [] []) true)) 0x60000092 = true
    ∧ regsAre (step (driveIrq (start 0x0000003F 0x08000102 [] []) true)) [(.irq 1, 0x08000106), (.pc, 0x18)] = true := by
  decide

/-- F, R98: a store into the next two instructions faults, one beyond them does not. -/
theorem test_pipeline_hazard :
    faults (arm (start 0x1F 0x03000000 [(.usr 1, 0x03000004)] []) 0xE5810000) (.pipelineHazard 0x03000000) = true
    ∧ goesOn (arm (start 0x1F 0x03000000 [(.usr 1, 0x0300000C)] []) 0xE5810000) = true := by
  decide

/-- D3: LDMIA R0, {R13}^ in IRQ mode opens the user-bank hazard, and MOV R1, R13 meets it. -/
theorem test_user_bank_hazard :
    (match arm (start 0x92 0x08000000 [(.usr 0, 0x02000000)] [(0x02000000, 0x03007E00)]) 0xE8D02000 with
      | .next t => t.usr.get 13 == 0x03007E00 && t.userBankHazard
          && faults (arm t 0xE1A0100D) (.unpredictable .userBankHazard)
      | _ => false) = true := by
  decide

/-- R548: the host sets the break flag at the second boundary of a call; one MOV has run. -/
theorem test_break_during_call :
    residual (execute (fun k => ⟨false, k == 1, []⟩) 100 ((start 0x1F 0x08000000 [] []).withFetchWord 32 0xE3A00001)) = some 99
    := by decide

/-- R495: the fetch at the vector is not sequential, even where it follows the address of the trap or of the last
fetch: UND at 0x0, SWI at 0x4, IRQ after the instruction at 0x14. -/
theorem test_entry_not_sequential :
    (match arm (start 0x1F 0 [] []) 0xE7F000F0 with
      | .next t => t.pc == 4 && !fetchSequential t
      | _ => false) = true
    ∧ (match arm (start 0x1F 4 [] []) 0xEF000000 with
      | .next t => t.pc == 8 && !fetchSequential t
      | _ => false) = true
    ∧ (match step (driveIrq { start 0x1F 0x18 [] [] with lastFetch := some 0x14 } true) with
      | .next t => t.pc == 0x18 && !fetchSequential t
      | _ => false) = true := by
  decide

/-- R550: the fetch after a PC write is not sequential, even where B . + 4 or the host goes to the very next
instruction; after MOV R0, #1 it is. -/
theorem test_pc_write_not_sequential :
    (match arm (start 0x1F 0x08000000 [] []) 0xEAFFFFFF with
      | .next t => t.pc == 0x08000004 && !fetchSequential t
      | _ => false) = true
    ∧ (match arm (start 0x1F 0x08000000 [] []) 0xE3A00001 with
      | .next t => t.pc == 0x08000004 && fetchSequential t && !fetchSequential (hostWriteReg t .pc 0x08000004)
      | _ => false) = true := by
  decide

/-! ## The platform's own addresses (20_memory.md R92, R93) -/

/-- The I/O registers at 0x04000000 answered by the platform. -/
def withDevices (s : State) : State := mapDevices s [⟨0x04000000, 0x400⟩]

/-- The words a range takes in: its first and last byte, and the bytes on either side. -/
theorem test_isDevice :
    isDevice [⟨0x04000000, 0x400⟩] 0x04000000 = true ∧ isDevice [⟨0x04000000, 0x400⟩] 0x040003FF = true
    ∧ isDevice [⟨0x04000000, 0x400⟩] 0x04000400 = false ∧ isDevice [⟨0x04000000, 0x400⟩] 0x03FFFFFF = false := by decide

/-- The words a range takes in by a part of them, at its beginning and its end, an empty range, and the top of the
address space (log 5). -/
theorem test_isDevice_partial :
    isDevice [⟨0x04000003, 2⟩] 0x04000000 = true ∧ isDevice [⟨0x04000003, 2⟩] 0x04000007 = true
    ∧ isDevice [⟨0x04000003, 1⟩] 0x04000004 = false ∧ isDevice [⟨0x04000003, 2⟩] 0x03FFFFFF = false
    ∧ isDevice [⟨0x04000002, 0⟩] 0x04000002 = false ∧ isDevice [⟨0xFFFFFFFC, 8⟩] 0 = false := by decide

/-- STR R0, [R1] to a device presents the one write and leaves ordinary memory; LDR R0, [R1] presents the one read. -/
theorem test_device_access :
    (match arm (withDevices (start 0x1F 0x08000000 [(.usr 0, 5), (.usr 1, 0x04000000)] [])) 0xE5810000 with
      | .next t => (t.bus.map request).drop 1 == [writeRequest .word 0x04000000 5 false] && memRead t.mem .word 0x04000000 == 0
      | _ => false) = true
    ∧ (match arm (withDevices (start 0x1F 0x08000000 [(.usr 1, 0x04000002)] [])) 0xE5910000 with
      | .next t => (t.bus.map request).drop 1 == [readRequest .word 0x04000000 false]
      | _ => false) = true := by
  decide

/-! ## Memory keeps its canonical form -/

/-- Writing what an unlisted address reads as removes the entry; entries stay in the order of addresses. -/
theorem test_memory :
    Memory.write (Memory.write (Memory.write [] 5 1) 3 2) 5 0 = [(3, 2)]
    ∧ Memory.write (Memory.write [] 5 1) 3 2 = [(3, 2), (5, 1)] := by
  decide

/-! ## A table row runs as the first instruction after reset -/

theorem test_first_instruction :
    goesOn (step (State.reset.withFetchWord 32 0xE3A00001)) = true
    ∧ goesOn (step (State.reset.withFetchWord 16 0x2001)) = true
    ∧ decodeTableWord 32 0xE3A00001 = some (.movImm .al false 0 0 0 1)
    ∧ decodeTableWord 16 0x2001 = some (.tMovImm 0 1) := by
  decide

/-! ## Witnesses: for every statement with hypotheses, states and operands that meet all of them -/

/-- System mode, ARM state. -/
def sys : State := start 0x1F 0x08000000 [(.usr 0, 0x02000000), (.usr 1, 0x02000004), (.usr 2, 7), (.usr 13, 0x03007F00)] []

/-- System mode, Thumb state. -/
def sysT : State := start 0x3F 0x08000000 [(.usr 0, 0x02000000), (.usr 1, 0x02000004), (.usr 13, 0x03007F00)] []

/-- User mode, ARM state. -/
def usr : State := start 0x10 0x08000000 [(.usr 0, 0x800000DF)] []

/-- IRQ mode, with a CPSR to go back to. -/
def irq : State := setSpsr (start 0x92 0x08000000 [(.usr 0, 0x02000000)] []) .irq 0x2000003F

/-- Supervisor mode, with an SPSR whose mode field decodes to no mode. -/
def badSpsr : State := setSpsr (start 0x93 0x08000000 [(.svc 1, 0x08000204)] []) .svc 0

/-- FIQ mode with the user-bank hazard open. -/
def hazard : State := { start 0x91 0x08000000 [(.usr 0, 0x02000000)] [] with userBankHazard := true }

/-- The same in Thumb state. -/
def hazardT : State := { start 0xB1 0x08000000 [(.usr 0, 0x02000000)] [] with userBankHazard := true }

/-- The hypotheses of the second clause of UserBankHazard. -/
def meetsHazard (i : Instr) (s : State) (rs : List Reg) : Bool :=
  accessed i s == some rs && runs i s && s.userBankHazard
    && rs.any (fun r => r != 15 && bank s.cpsr.mode r != bank .user r)

theorem witness_FailedConditionOnlyAdvances :
    condOf (.b .eq 0) = some .eq ∧ Cond.eq ≠ .nv ∧ condHolds .eq sys.cpsr = false ∧ sys.cpsr.t = false := by decide

theorem witness_NvConditionFaults : condOf (.b .nv 0) = some .nv := by decide

theorem witness_IllFormedFaults :
    (Instr.defect (.mul .al false 3 0 2 3) = some .mulOverlap ∧ passes (.mul .al false 3 0 2 3) sys = true)
    ∧ (Instr.defect (.b .nv 0) = some .nvCondition ∧ passes (.b .nv 0) sys = true)
    ∧ (Instr.defect (.tMul 3 3) = some .mulOverlap ∧ passes (.tMul 3 3) sysT = true) := by decide

theorem witness_DpResults :
    (dpForm (.addImm .al true 1 0 0 1) = some ⟨.add, true, 1, 0, .imm 0 1⟩
      ∧ ready (.addImm .al true 1 0 0 1) sys (DpForm.regs ⟨.add, true, 1, 0, .imm 0 1⟩) = true
      ∧ DpOp.add.isTest = false ∧ (0 : Reg) ≠ 15)
    ∧ ready (.subImmShift .al false 15 14 31 .ror 15) sys (DpForm.regs ⟨.sub, false, 15, 14, .immShift 31 .ror 15⟩) = true
    ∧ ready (.mvnRegShift .al true 0 14 2 .asr 15) sys (DpForm.regs ⟨.mvn, true, 0, 14, .regShift 2 .asr 15⟩) = true := by
  decide

theorem witness_DpTests :
    dpForm (.cmpImm .al 1 0 0 1) = some ⟨.cmp, true, 1, 0, .imm 0 1⟩
    ∧ ready (.cmpImm .al 1 0 0 1) sys (DpForm.regs ⟨.cmp, true, 1, 0, .imm 0 1⟩) = true ∧ DpOp.cmp.isTest = true := by decide

theorem witness_DpJump :
    dpForm (.movImmShift .al false 0 15 0 .lsl 0) = some ⟨.mov, false, 0, 15, .immShift 0 .lsl 0⟩
    ∧ ready (.movImmShift .al false 0 15 0 .lsl 0) sys (DpForm.regs ⟨.mov, false, 0, 15, .immShift 0 .lsl 0⟩) = true
    ∧ DpOp.mov.isTest = false := by decide

/-- Both clauses: an SPSR whose mode field decodes and one whose mode field does not. -/
theorem witness_DpReturn :
    dpForm (.movImmShift .al true 0 15 0 .lsl 14) = some ⟨.mov, true, 0, 15, .immShift 0 .lsl 14⟩
    ∧ ready (.movImmShift .al true 0 15 0 .lsl 14) irq (DpForm.regs ⟨.mov, true, 0, 15, .immShift 0 .lsl 14⟩) = true
    ∧ irq.cpsr.mode.spsr = some .irq ∧ psrOfWord (readSpsr irq .irq) = some (psr 0x2000003F)
    ∧ ready (.movImmShift .al true 0 15 0 .lsl 14) badSpsr (DpForm.regs ⟨.mov, true, 0, 15, .immShift 0 .lsl 14⟩) = true
    ∧ badSpsr.cpsr.mode.spsr = some .svc ∧ psrOfWord (readSpsr badSpsr .svc) = none := by decide

/-- The amounts where the clauses of ShiftBits meet: 1, 32, 33. -/
theorem witness_ShiftBits :
    (1 ≤ 1 ∧ (shiftByReg .lsl 0x80000000 1 false).2 = true) ∧ (1 ≤ 32 ∧ (shiftByReg .lsl 1 32 false).2 = true)
    ∧ (1 ≤ 33 ∧ (shiftByReg .lsl 1 33 true).2 = false ∧ (shiftByReg .ror 1 33 false).2 = true)
    ∧ ((1 : BitVec 5) ≠ 0 ∧ shiftByImm .ror 1 1 false = (0x80000000, true))
    ∧ ((31 : BitVec 5) ≠ 0 ∧ shiftByImm .asr 0x80000000 31 false = (0xFFFFFFFF, false)) := by decide

theorem witness_MrsResults :
    ready (.mrs .al false 15 14 0 0) usr [14] = true
    ∧ ready (.mrs .al true 15 14 0 0) irq [14] = true ∧ irq.cpsr.mode.spsr = some .irq := by decide

theorem witness_MsrInUserMode :
    msrForm (.msrReg .al false 9 15 0 0) usr = some ⟨false, 9, 0x800000DF, [0]⟩
    ∧ ready (.msrReg .al false 9 15 0 0) usr [0] = true ∧ usr.cpsr.mode = .user := by decide

/-- The four clauses: no c field, another T, a mode field that decodes to none, a mode. -/
theorem witness_MsrPrivileged :
    (msrForm (.msrImm .al false 8 15 2 0x0F) sys = some ⟨false, 8, 0xF0000000, []⟩
      ∧ ready (.msrImm .al false 8 15 2 0x0F) sys [] = true ∧ sys.cpsr.mode ≠ .user ∧ (8 : BitVec 4).getLsbD 0 = false)
    ∧ (msrForm (.msrImm .al false 1 15 0 0x3F) sys = some ⟨false, 1, 0x3F, []⟩
      ∧ ready (.msrImm .al false 1 15 0 0x3F) sys [] = true ∧ (0x3F : Word).getLsbD 5 ≠ sys.cpsr.t)
    ∧ (msrForm (.msrImm .al false 1 15 0 0x1A) sys = some ⟨false, 1, 0x1A, []⟩
      ∧ ready (.msrImm .al false 1 15 0 0x1A) sys [] = true ∧ modeOfBits ((0x1A : Word).extractLsb' 0 5) = none)
    ∧ (msrForm (.msrImm .al false 9 15 0 0xD2) sys = some ⟨false, 9, 0xD2, []⟩
      ∧ ready (.msrImm .al false 9 15 0 0xD2) sys [] = true ∧ modeOfBits ((0xD2 : Word).extractLsb' 0 5) = some .irq) := by
  decide

theorem witness_MsrSpsr :
    msrForm (.msrReg .al true 15 15 0 0) irq = some ⟨true, 15, 0x02000000, [0]⟩
    ∧ ready (.msrReg .al true 15 15 0 0) irq [0] = true ∧ irq.cpsr.mode.spsr = some .irq
    ∧ ready (.msrReg .al true 15 15 0 0) usr [0] = true ∧ usr.cpsr.mode = .user
    ∧ ready (.msrReg .al true 15 15 0 0) sys [0] = true ∧ sys.cpsr.mode = .system := by decide

theorem witness_SpsrAbsentFaults :
    usr.cpsr.mode = .user ∧ sys.cpsr.mode = .system ∧ ready (.mrs .al true 15 0 0 0) usr [0] = true
    ∧ dpForm (.movImmShift .al true 0 15 0 .lsl 14) = some ⟨.mov, true, 0, 15, .immShift 0 .lsl 14⟩
    ∧ ready (.movImmShift .al true 0 15 0 .lsl 14) sys (DpForm.regs ⟨.mov, true, 0, 15, .immShift 0 .lsl 14⟩) = true := by
  decide

theorem witness_MulResults :
    mulForm (.mul .al true 0 0 2 1) = some ⟨true, 0, 2, 1, none⟩ ∧ ready (.mul .al true 0 0 2 1) sys [0, 2, 1] = true
    ∧ mulForm (.mla .al false 0 3 2 1) = some ⟨false, 0, 2, 1, some 3⟩
    ∧ ready (.mla .al false 0 3 2 1) sys [0, 2, 1, 3] = true := by decide

theorem witness_LongMulResults :
    longForm (.umull .al false 1 0 3 2) = some ⟨false, false, false, 1, 0, 3, 2⟩
    ∧ ready (.umull .al false 1 0 3 2) sys [1, 0, 3, 2] = true ∧ ready (.umlal .al true 1 0 3 2) sys [1, 0, 3, 2] = true
    ∧ ready (.smull .al true 1 0 3 2) sys [1, 0, 3, 2] = true ∧ ready (.smlal .al true 1 0 3 2) sys [1, 0, 3, 2] = true := by
  decide

theorem witness_SwapResults :
    swapForm (.swp .al 0 2 0 1) = some ⟨false, 0, 2, 1⟩ ∧ ready (.swp .al 0 2 0 1) sys [0, 2, 1] = true
    ∧ storeHitsPipeline sys .word (alignTo .word (readReg sys 0)) = false
    ∧ ready (.swpb .al 1 2 0 2) sys [1, 2, 2] = true
    ∧ storeHitsPipeline sys .byte (alignTo .byte (readReg sys 1)) = false := by decide

/-- A destination that is not R15, R15 as the destination, a written-back base that is the destination, Thumb. -/
theorem witness_LoadResults :
    (loadForm (.ldrImmPost .al true 0 1 4) sys = some ⟨.word, 0x02000000, 1, some (0, 0x02000004), [0, 1]⟩
      ∧ ready (.ldrImmPost .al true 0 1 4) sys [0, 1] = true)
    ∧ (loadForm (.ldrImmPre .al true false 0 15 4) sys = some ⟨.word, 0x02000004, 15, none, [0, 15]⟩
      ∧ ready (.ldrImmPre .al true false 0 15 4) sys [0, 15] = true)
    ∧ (loadForm (.ldrshReg .al true false true 0 0 0 2) sys = some ⟨.signedHalf, 0x01FFFFF9, 0, some (0, 0x01FFFFF9), [0, 0, 2]⟩
      ∧ ready (.ldrshReg .al true false true 0 0 0 2) sys [0, 0, 2] = true)
    ∧ (loadForm (.tLdrSp 7 0xFF) sysT = some ⟨.word, 0x030082FC, 7, none, [13]⟩ ∧ ready (.tLdrSp 7 0xFF) sysT [13] = true) := by
  decide

theorem witness_StoreResults :
    (storeForm (.strImmPre .al false true 0 15 4) sys = some ⟨.word, 0x01FFFFFC, 0x0800000C, some (0, 0x01FFFFFC), [0, 15]⟩
      ∧ ready (.strImmPre .al false true 0 15 4) sys [0, 15] = true
      ∧ storeHitsPipeline sys .word (alignTo .word 0x01FFFFFC) = false)
    ∧ (storeForm (.tStrbImm 31 0 1) sysT = some ⟨.byte, 0x0200001F, 0x02000004, none, []⟩
      ∧ ready (.tStrbImm 31 0 1) sysT [] = true ∧ storeHitsPipeline sysT .byte (alignTo .byte 0x0200001F) = false) := by decide

/-- The first and last byte of the two fetched slots, and the bytes on either side of them. -/
theorem witness_PipelineStoreFaults :
    (storeHitsPipeline sys .byte 0x08000003 = false ∧ storeHitsPipeline sys .byte 0x08000004 = true
      ∧ storeHitsPipeline sys .byte 0x0800000B = true ∧ storeHitsPipeline sys .byte 0x0800000C = false)
    ∧ (storeForm (.strImmPre .al true false 15 0 0) sys = some ⟨.word, 0x08000008, 0x02000000, none, [15, 0]⟩
      ∧ ready (.strImmPre .al true false 15 0 0) sys [15, 0] = true
      ∧ storeHitsPipeline sys .word (alignTo .word 0x08000008) = true)
    ∧ (swapForm (.swp .al 0 2 0 1) = some ⟨false, 0, 2, 1⟩
      ∧ ready (.swp .al 0 2 0 1) { sys with pc := 0x01FFFFFC } [0, 2, 1] = true
      ∧ storeHitsPipeline { sys with pc := 0x01FFFFFC } .word (alignTo .word (readReg sys 0)) = true)
    ∧ (blockStoreForm (.stm .al false true false true 0 6) { sys with pc := 0x02000000 }
        = some ⟨0, true, 0x02000000, 0x02000008, [1, 2], 12⟩
      ∧ ready (.stm .al false true false true 0 6) { sys with pc := 0x02000000 } [0, 1, 2] = true
      ∧ storeHitsPipeline { sys with pc := 0x02000000 } .word 0x02000000 = false
      ∧ storeHitsPipeline { sys with pc := 0x02000000 } .word
          (BlockForm.wordAddr ⟨0, true, 0x02000000, 0x02000008, [1, 2], 12⟩ 1) = true)
    ∧ (blockStoreForm (.tStmia 0 2) { sysT with pc := 0x01FFFFFC } = some ⟨0, true, 0x02000000, 0x02000004, [1], 6⟩
      ∧ ready (.tStmia 0 2) { sysT with pc := 0x01FFFFFC } [0, 1] = true
      ∧ storeHitsPipeline { sysT with pc := 0x01FFFFFC } .word
          (BlockForm.wordAddr ⟨0, true, 0x02000000, 0x02000004, [1], 6⟩ 0) = true)
    ∧ (ready (.stm .al false true true false 0 0x2000) { irq with pc := 0x01FFFFF8 } [0] = true
      ∧ irq.cpsr.mode.spsr ≠ none
      ∧ storeHitsPipeline { irq with pc := 0x01FFFFF8 } .word ((armBlock irq false true false 0 0x2000).wordAddr 0) = true)
    ∧ (storeHitsPipeline { sys with pc := 0xFFFFFFFC } .byte 0xFFFFFFFF = false
      ∧ storeHitsPipeline { sys with pc := 0xFFFFFFFC } .byte 0 = true
      ∧ storeHitsPipeline { sys with pc := 0xFFFFFFFC } .byte 7 = true
      ∧ storeHitsPipeline { sys with pc := 0xFFFFFFFC } .byte 8 = false) := by decide

theorem witness_LoadedBytes :
    (0x02000002 : Word).getLsbD 0 = false ∧ (0x02000003 : Word).getLsbD 0 = true
    ∧ loadValue (start 0x1F 0 [] [(0x02000000, 0x11223344)]) .word 0x02000003 = 0x22334411
    ∧ isDevice sys.devices 0x02000003 = false ∧ isDevice (withDevices sys).devices 0x04000002 = true := by decide

theorem witness_RegisterLists :
    ((0x8001 : BitVec 16) ≠ 0 ∧ transferredRegs 0x8001 = [0, 15] ∧ transferBytes 0x8001 = 8)
    ∧ ((0 : BitVec 16) = 0 ∧ transferredRegs 0 = [15] ∧ transferBytes 0 = 0x40) := by decide

/-- R15 in the list, an empty list, the base in the list, the base outside it. -/
theorem witness_BlockLoadResults :
    (blockLoadForm (.ldm .al false true false true 0 0x8002) sys = some ⟨0, true, 0x02000000, 0x02000008, [1, 15], 12⟩
      ∧ ready (.ldm .al false true false true 0 0x8002) sys [0, 1, 15] = true)
    ∧ (blockLoadForm (.ldm .al true false false false 0 0) sys = some ⟨0, false, 0x01FFFFC0, 0x01FFFFC0, [15], 12⟩
      ∧ ready (.ldm .al true false false false 0 0) sys [0, 15] = true)
    ∧ (blockLoadForm (.tLdmia 0 3) sysT = some ⟨0, true, 0x02000000, 0x02000008, [0, 1], 6⟩
      ∧ ready (.tLdmia 0 3) sysT [0, 0, 1] = true)
    ∧ (blockLoadForm (.tPop true 0x10) sysT = some ⟨13, true, 0x03007F00, 0x03007F08, [4, 15], 6⟩
      ∧ ready (.tPop true 0x10) sysT [13, 4, 15] = true) := by decide

theorem witness_BlockStoreResults :
    (blockStoreForm (.stm .al true false false true 13 0x4010) sys = some ⟨13, true, 0x03007EF8, 0x03007EF8, [4, 14], 12⟩
      ∧ ready (.stm .al true false false true 13 0x4010) sys [13, 4, 14] = true
      ∧ (List.range 2).all (fun k => !storeHitsPipeline sys .word
          (BlockForm.wordAddr ⟨13, true, 0x03007EF8, 0x03007EF8, [4, 14], 12⟩ k)) = true)
    ∧ (blockStoreForm (.tPush true 0x10) sysT = some ⟨13, true, 0x03007EF8, 0x03007EF8, [4, 14], 6⟩
      ∧ ready (.tPush true 0x10) sysT [13, 4, 14] = true)
    ∧ (blockStoreForm (.tStmia 0 0) sysT = some ⟨0, true, 0x02000000, 0x02000040, [15], 6⟩
      ∧ ready (.tStmia 0 0) sysT [0, 15] = true) := by decide

theorem witness_UserBankLoad :
    ready (.ldm .al false true true false 0 0x6000) irq [0] = true ∧ irq.cpsr.mode.spsr ≠ none
    ∧ 15 ∉ transferredRegs 0x6000 := by decide

theorem witness_LdmReturn :
    ready (.ldm .al false true true true 0 0x8001) irq (0 :: (armBlock irq false true true 0 0x8001).regs) = true
    ∧ 15 ∈ (armBlock irq false true true 0 0x8001).regs ∧ irq.cpsr.mode.spsr = some .irq
    ∧ psrOfWord (readSpsr irq .irq) = some (psr 0x2000003F)
    ∧ ready (.ldm .al false true true true 0 0) irq (0 :: (armBlock irq false true true 0 0).regs) = true
    ∧ (ready (.ldm .al false true true true 0 0x8001) badSpsr (0 :: (armBlock badSpsr false true true 0 0x8001).regs) = true
      ∧ 15 ∈ (armBlock badSpsr false true true 0 0x8001).regs ∧ badSpsr.cpsr.mode.spsr = some .svc
      ∧ psrOfWord (readSpsr badSpsr .svc) = none) := by decide

theorem witness_UserBankStore :
    ready (.stm .al false true true false 0 0x2000) irq [0] = true ∧ irq.cpsr.mode.spsr ≠ none
    ∧ storeHitsPipeline irq .word ((armBlock irq false true false 0 0x2000).wordAddr 0) = false := by decide

theorem witness_UserBankFormsFault :
    (usr.cpsr.mode = .user ∧ runs (.ldm .al false true true false 0 2) usr = true ∧ runs (.stm .al false true true false 0 2) usr = true)
    ∧ (sys.cpsr.mode = .system ∧ runs (.ldm .al false true true true 0 0x8000) sys = true) := by decide

theorem witness_UserBankHazard :
    (match exec (.ldm .al false true true false 0 0x2000) irq with
      | .next t => t.userBankHazard
      | _ => false) = true
    ∧ meetsHazard (.movImmShift .al false 0 1 0 .lsl 8) hazard [8, 1] = true
    ∧ meetsHazard (.ldrImmPost .al true 0 8 0) hazard [0, 8] = true
    ∧ meetsHazard (.stm .al false true false true 8 1) hazard [8, 0] = true
    ∧ meetsHazard (.ldm .al false true false true 0 0x4002) hazard [0, 1, 14] = true := by decide

/-- The other forms: status transfers, links, exchanges, LDM and STM with S = 1, Thumb. -/
theorem witness_UserBankHazard_others :
    meetsHazard (.mrs .al false 15 8 0 0) hazard [8] = true ∧ meetsHazard (.msrReg .al false 1 15 0 14) hazard [14] = true
    ∧ meetsHazard (.bl .al 0) hazard [14] = true ∧ meetsHazard (.bx .al 0xFFF 14) hazard [14] = true
    ∧ meetsHazard (.ldm .al false true true false 13 0x0100) hazard [13] = true
    ∧ meetsHazard (.ldm .al false true true true 0 0x8100) hazard [0, 8, 15] = true
    ∧ meetsHazard (.stm .al false true true false 12 0x0100) hazard [12] = true
    ∧ meetsHazard (.tAddHi true false 0 0) hazardT [8, 0] = true ∧ meetsHazard (.tCmpHi false true 0 0) hazardT [0, 8] = true
    ∧ meetsHazard (.tMovHi true true 6 5) hazardT [13, 14] = true ∧ meetsHazard (.tBx false true 6 0) hazardT [14] = true
    ∧ meetsHazard (.tAddSp 0 1) hazardT [13] = true ∧ meetsHazard (.tSpAdd 1) hazardT [13] = true
    ∧ meetsHazard (.tSpSub 1) hazardT [13] = true ∧ meetsHazard (.tPush true 1) hazardT [13, 0, 14] = true
    ∧ meetsHazard (.tPop true 1) hazardT [13, 0, 15] = true ∧ meetsHazard (.tLdrSp 0 0) hazardT [13] = true
    ∧ meetsHazard (.tBlFirst 0) hazardT [14] = true ∧ meetsHazard (.tBlSecond 0) hazardT [14] = true := by decide

theorem witness_ArmBranches : ready (.b .al 0xFFFFFE) sys [] = true ∧ ready (.bl .al 0x7FFFFF) sys [14] = true := by decide

theorem witness_BranchExchange :
    ready (.bx .al 0xFFF 15) sys [15] = true ∧ ready (.bx .al 0xFFF 0) sys [0] = true
    ∧ ready (.tBx false true 7 0) sysT [highReg true 7] = true ∧ ready (.tBx false false 0 0) sysT [highReg false 0] = true := by
  decide

theorem witness_SoftwareInterruptEntry : runs (.swi .al 5) usr = true ∧ runs (.tSwi 6) sysT = true := by decide

theorem witness_UndefinedEntry :
    (isUndefinedArm (.cdp .al 0 0 0 0 0 0) = true ∧ runs (.cdp .al 0 0 0 0 0 0) usr = true)
    ∧ (isUndefinedThumb (.tUndefDE 0) = true ∧ runs (.tUndefDE 0) sysT = true) := by decide

theorem witness_ThumbAluResults :
    thumbAlu (.tNeg 1 0) sysT = some ⟨some 0, .sub, 0, 0x02000004, false⟩ ∧ runs (.tNeg 1 0) sysT = true
    ∧ thumbAlu (.tCmpImm 0 1) sysT = some ⟨none, .cmp, 0x02000000, 1, false⟩ ∧ runs (.tCmpImm 0 1) sysT = true := by decide

theorem witness_ThumbMulResult : runs (.tMul 1 0) sysT = true := by decide

theorem witness_ThumbHighRegisters :
    ready (.tAddHi true false 0 7) sysT [highReg true 7, highReg false 0] = true
    ∧ ready (.tMovHi false true 7 0) sysT [highReg false 0, highReg true 7] = true
    ∧ ready (.tCmpHi true true 0 7) sysT [highReg true 7, highReg true 0] = true := by decide

theorem witness_ThumbAddresses :
    thumbAddressForm (.tAddPc 0 1) sysT = some (0, 0x08000008, []) ∧ ready (.tAddPc 0 1) sysT [] = true
    ∧ thumbAddressForm (.tAddSp 0 1) sysT = some (0, 0x03007F04, [13]) ∧ ready (.tAddSp 0 1) sysT [13] = true
    ∧ ready (.tSpAdd 127) sysT [13] = true ∧ ready (.tSpSub 127) sysT [13] = true := by decide

/-- The last condition of each of the three rows of B<cond>, passing and failing. -/
theorem witness_ThumbBranches :
    (thumbBranchForm (.tBcondD0 7 0x80) sysT = some (.vc, 0x07FFFF04) ∧ ready (.tBcondD0 7 0x80) sysT [] = true)
    ∧ (thumbBranchForm (.tBcondD8 3 0x7F) sysT = some (.lt, 0x08000102) ∧ ready (.tBcondD8 3 0x7F) sysT [] = true)
    ∧ (thumbBranchForm (.tBcondDC 1 0) sysT = some (.le, 0x08000004) ∧ ready (.tBcondDC 1 0) sysT [] = true)
    ∧ ready (.tB 0x400) sysT [] = true ∧ ready (.tBlFirst 0x400) sysT [14] = true
    ∧ ready (.tBlSecond 0x7FF) sysT [14] = true := by decide

/-- Not held with no IRQ, held, in both states. -/
theorem witness_StepRunsDecoded :
    (hostHolds sys = false ∧ irqTaken sys = false ∧ decode (fetchCode (sys.withFetchWord 32 0xE3A00001)) = .movImm .al false 0 0 0 1)
    ∧ (hostHolds sysT = false ∧ decode (fetchCode (sysT.withFetchWord 16 0x2001)) = .tMovImm 0 1)
    ∧ hostHolds (requestBreak sys) = true := by decide

/-- The clauses on the fetch: an aligned R15 in ordinary memory and in the platform's. -/
theorem witness_StepRunsDecoded_fetch :
    (PcAligned sys ∧ isDevice sys.devices sys.pc = false) ∧ (PcAligned sysT ∧ isDevice sysT.devices sysT.pc = false)
    ∧ PcAligned { withDevices sys with pc := 0x04000000 } ∧ isDevice (withDevices sys).devices 0x04000000 = true :=
  ⟨⟨by unfold PcAligned; decide, by decide⟩, ⟨by unfold PcAligned; decide, by decide⟩, by unfold PcAligned; decide,
    by decide⟩

theorem witness_IrqAtBoundary :
    hostHolds (driveIrq sys true) = false ∧ (driveIrq sys true).irqLine = true ∧ (driveIrq sys true).cpsr.i = false := by decide

theorem witness_ExecuteNonPositive : (0 : Int) ≤ 0 ∧ (-5 : Int) ≤ 0 := by decide

theorem witness_ExecuteReturnsHeld : (0 : Int) < 1 ∧ residual (call 1 (sys.withFetchWord 32 0xE3A00001)) = some 0 := by
  decide

theorem witness_StepSpendsBudget :
    hostHolds (sys.withFetchWord 32 0xE3A00001) = false ∧ goesOn (step (sys.withFetchWord 32 0xE3A00001)) = true := by decide

theorem witness_HostStateUntouched : goesOn (step (sysT.withFetchWord 16 0xB510)) = true := by decide

theorem witness_StepKeepsInv :
    (sysT.withFetchWord 16 0xB510).Inv ∧ goesOn (step (sysT.withFetchWord 16 0xB510)) = true :=
  ⟨⟨by decide, by unfold PcAligned; decide⟩, by decide⟩

theorem witness_UserModeConfined :
    (usr.withFetchWord 32 0xE129F000).cpsr.mode = .user ∧ goesOn (step (usr.withFetchWord 32 0xE129F000)) = true
    ∧ goesOn (step (usr.withFetchWord 32 0xEF000000)) = true := by decide

theorem witness_TrapRoundTrip :
    PcAligned sys ∧ trapLink (.swi .al 5) ≠ none ∧ runs (.swi .al 5) sys = true ∧ goesOn (exec (.swi .al 5) sys) = true
    ∧ trapLink (.tUndefDE 0) ≠ none ∧ runs (.tUndefDE 0) sysT = true ∧ goesOn (exec (.tUndefDE 0) sysT) = true :=
  ⟨by unfold PcAligned; decide, by decide, by decide, by decide, by decide, by decide, by decide⟩

theorem witness_AccessesPresented :
    (goesOn (exec (.swp .al 0 2 0 1) (withDevices sys)) = true ∧ runs (.swp .al 0 2 0 1) (withDevices sys) = true)
    ∧ goesOn (exec (.b .eq 0) sys) = true ∧ passes (.b .eq 0) sys = false
    ∧ dataAccesses (.ldm .al false true false true 0 6) sys
      = [readRequest .word 0x02000000 false, readRequest .word 0x02000004 true]
    ∧ dataAccesses (.stm .al false true true false 0 0x8001) irq
      = [writeRequest .word (readReg irq 0) (readReg irq 0) false,
         writeRequest .word (readReg irq 0 + 4) (irq.pc + 12) true] := by decide

/-- The reads clause: SWP R2, R1, [R0] presents the read of what memory holds, then the write of R1; STRB hands over
the low byte alone. -/
theorem witness_AccessesPresented_values :
    (match exec (.swp .al 0 2 0 1) sys with
      | .next t => t.bus.map (fun x => (x.write, x.width, x.addr, x.value))
          == sys.bus.map (fun x => (x.write, x.width, x.addr, x.value))
            ++ [(false, .word, readReg sys 0, memRead sys.mem .word (readReg sys 0)),
                (true, .word, readReg sys 0, readReg sys 1)]
      | _ => false) = true
    ∧ writeRequest .byte 0x02000001 0x1234 false = ⟨true, .byte, 0x02000001, 0x34, false, false⟩
    ∧ writeRequest .half 0x02000002 0x12345 false = ⟨true, .half, 0x02000002, 0x2345, false, false⟩ := by decide

end Sys2Proof.Tests
end

/-! Every instruction goes through the shared operations: the dispatch by family, stated once for any property of a
result. -/

namespace Sys2Proof.Machine

open Sys2Proof

/-- The property `P` of a state and a result holds of every shared operation that a meaning goes through. -/
structure HoldsOfOperations (P : State → Result → Prop) : Prop where
  dataProcessing : ∀ op c sf rn rd o s, P s (dataProcessing op c sf rn rd o s)
  moveFromPsr : ∀ c r sbo rd sbzHi sbzLo s, P s (moveFromPsr c r sbo rd sbzHi sbzLo s)
  moveToPsrReg : ∀ c r fm sbo sbz rm s, P s (moveToPsrReg c r fm sbo sbz rm s)
  moveToPsrImm : ∀ c r fm sbo rot imm s, P s (moveToPsrImm c r fm sbo rot imm s)
  multiply : ∀ acc c sf rd rn rs rm s, P s (multiply acc c sf rd rn rs rm s)
  multiplyLong : ∀ signed acc c sf rdHi rdLo rs rm s, P s (multiplyLong signed acc c sf rdHi rdLo rs rm s)
  swap : ∀ byte c rn rd sbz rm s, P s (swap byte c rn rd sbz rm s)
  loadWordByte : ∀ byte c x rn rd o s, P s (loadWordByte byte c x rn rd o s)
  storeWordByte : ∀ byte c x rn rd o s, P s (storeWordByte byte c x rn rd o s)
  loadHalfword : ∀ k c x rn rd sbz o s, P s (loadHalfword k c x rn rd sbz o s)
  storeHalfword : ∀ c x rn rd sbz o s, P s (storeHalfword c x rn rd sbz o s)
  loadMultiple : ∀ c p u sf w rn list s, P s (loadMultiple c p u sf w rn list s)
  storeMultiple : ∀ c p u sf w rn list s, P s (storeMultiple c p u sf w rn list s)
  branch : ∀ c off s, P s (branch c off s)
  branchLink : ∀ c off s, P s (branchLink c off s)
  branchExchange : ∀ c sbo rm s, P s (branchExchange c sbo rm s)
  undefinedArm : ∀ c s, P s (undefinedArm c s)
  softwareInterruptArm : ∀ c s, P s (whenCond c s (raiseSoftwareInterrupt s))
  thumbLogical : ∀ rd v c s, P s (thumbLogical rd v c s)
  thumbArith : ∀ rd a s, P s (thumbArith rd a s)
  thumbShiftReg : ∀ k rs rd s, P s (thumbShiftReg k rs rd s)
  thumbTest : ∀ v c s, P s (thumbFlags (logicalFlags s.cpsr v c) s)
  thumbCompare : ∀ a s, P s (thumbFlags (arithFlags s.cpsr a) s)
  thumbMultiply : ∀ rs rd s, P s (thumbMultiply rs rd s)
  thumbAddHigh : ∀ h1 h2 rs rd s, P s (thumbAddHigh h1 h2 rs rd s)
  thumbCmpHigh : ∀ h1 h2 rs rd s, P s (thumbCmpHigh h1 h2 rs rd s)
  thumbMovHigh : ∀ h1 h2 rs rd s, P s (thumbMovHigh h1 h2 rs rd s)
  thumbBranchExchange : ∀ h1 h2 rs rd s, P s (thumbBranchExchange h1 h2 rs rd s)
  thumbLoad : ∀ k a rd s, P s (thumbLoad k a rd s)
  thumbStore : ∀ w a rd s, P s (thumbStore w a rd s)
  thumbAddress : ∀ a rd s, P s (thumbAddress a rd s)
  thumbStackMove : ∀ v s, P s (thumbStackMove v s)
  onStack : ∀ s k, P s k → P s (onStack s k)
  thumbPush : ∀ r list s, P s (thumbPush r list s)
  thumbPop : ∀ r list s, P s (thumbPop r list s)
  thumbStoreMultiple : ∀ rb list s, P s (thumbStoreMultiple rb list s)
  thumbLoadMultiple : ∀ rb list s, P s (thumbLoadMultiple rb list s)
  thumbBranchCond : ∀ c off s, P s (thumbBranchCond c off s)
  thumbJump : ∀ s v, P s (.next (writePc s v))
  thumbLinkFirst : ∀ off s, P s (thumbLinkFirst off s)
  thumbLinkSecond : ∀ off s, P s (thumbLinkSecond off s)
  undefinedThumb : ∀ s, P s (raiseUndefined s)
  softwareInterruptThumb : ∀ s, P s (raiseSoftwareInterrupt s)

/-- What holds of every shared operation holds of every instruction: each constructor of `Instr` under the
operation its meaning is. -/
theorem HoldsOfOperations.exec {P : State → Result → Prop} (h : HoldsOfOperations P) (i : Instr) (s : State) :
    P s (exec i s) := by
  cases i with
  | andImmShift | eorImmShift | subImmShift | rsbImmShift | addImmShift | adcImmShift | sbcImmShift | rscImmShift
  | tstImmShift | teqImmShift | cmpImmShift | cmnImmShift | orrImmShift | movImmShift | bicImmShift | mvnImmShift
  | andRegShift | eorRegShift | subRegShift | rsbRegShift | addRegShift | adcRegShift | sbcRegShift | rscRegShift
  | tstRegShift | teqRegShift | cmpRegShift | cmnRegShift | orrRegShift | movRegShift | bicRegShift | mvnRegShift
  | andImm | eorImm | subImm | rsbImm | addImm | adcImm | sbcImm | rscImm
  | tstImm | teqImm | cmpImm | cmnImm | orrImm | movImm | bicImm | mvnImm => exact h.dataProcessing ..
  | mrs => exact h.moveFromPsr ..
  | msrReg => exact h.moveToPsrReg ..
  | msrImm => exact h.moveToPsrImm ..
  | mul | mla => exact h.multiply ..
  | umull | umlal | smull | smlal => exact h.multiplyLong ..
  | swp | swpb => exact h.swap ..
  | ldrImmPost | ldrtImm | ldrbImmPost | ldrbtImm | ldrImmPre | ldrbImmPre
  | ldrRegPost | ldrtReg | ldrbRegPost | ldrbtReg | ldrRegPre | ldrbRegPre => exact h.loadWordByte ..
  | strImmPost | strtImm | strbImmPost | strbtImm | strImmPre | strbImmPre
  | strRegPost | strtReg | strbRegPost | strbtReg | strRegPre | strbRegPre => exact h.storeWordByte ..
  | ldrhReg | ldrhImm | ldrsbReg | ldrsbImm | ldrshReg | ldrshImm => exact h.loadHalfword ..
  | strhReg | strhImm => exact h.storeHalfword ..
  | ldm => exact h.loadMultiple ..
  | stm => exact h.storeMultiple ..
  | b => exact h.branch ..
  | bl => exact h.branchLink ..
  | bx => exact h.branchExchange ..
  | swi => exact h.softwareInterruptArm ..
  | undefMisc01000020 | undefMisc01000040 | undefMisc01000080 | undefMisc01000010 | undefMisc01200030
  | undefMisc01200050 | undefMisc01400010 | undefMulSwap00400090 | undefMulSwap01100090 | undefMulSwap01200090
  | undefMulSwap01800090 | undefHalfStore | undefTstImm | undefArch
  | stc | ldc | cdp | mcr | mrc => exact h.undefinedArm ..
  | tLslImm | tLsrImm | tAsrImm | tMovImm | tAnd | tEor | tOrr | tBic | tMvn => exact h.thumbLogical ..
  | tAddReg | tSubReg | tAddImm3 | tSubImm3 | tAddImm8 | tSubImm8 | tAdc | tSbc | tNeg => exact h.thumbArith ..
  | tLslReg | tLsrReg | tAsrReg | tRorReg => exact h.thumbShiftReg ..
  | tTst => exact h.thumbTest ..
  | tCmpImm | tCmpReg | tCmn => exact h.thumbCompare ..
  | tMul => exact h.thumbMultiply ..
  | tAddHi => exact h.thumbAddHigh ..
  | tCmpHi => exact h.thumbCmpHigh ..
  | tMovHi => exact h.thumbMovHigh ..
  | tBx => exact h.thumbBranchExchange ..
  | tLdrPc | tLdrsbReg | tLdrReg | tLdrhReg | tLdrbReg | tLdrshReg | tLdrImm | tLdrbImm | tLdrhImm =>
    exact h.thumbLoad ..
  | tStrReg | tStrhReg | tStrbReg | tStrImm | tStrbImm | tStrhImm => exact h.thumbStore ..
  | tLdrSp => exact h.onStack _ _ (h.thumbLoad ..)
  | tStrSp => exact h.onStack _ _ (h.thumbStore ..)
  | tAddPc => exact h.thumbAddress ..
  | tAddSp => exact h.onStack _ _ (h.thumbAddress ..)
  | tSpAdd | tSpSub => exact h.onStack _ _ (h.thumbStackMove ..)
  | tPush => exact h.thumbPush ..
  | tPop => exact h.thumbPop ..
  | tStmia => exact h.thumbStoreMultiple ..
  | tLdmia => exact h.thumbLoadMultiple ..
  | tBcondD0 | tBcondD8 | tBcondDC => exact h.thumbBranchCond ..
  | tB => exact h.thumbJump ..
  | tBlFirst => exact h.thumbLinkFirst ..
  | tBlSecond => exact h.thumbLinkSecond ..
  | tSwi => exact h.softwareInterruptThumb ..
  | tUndefB1 | tUndefB8 | tUndefB2 | tUndefDE | tUndefE8 => exact h.undefinedThumb ..

end Sys2Proof.Machine

/-! No refusal (00_scope.md R12): each shared operation answers a next state or a fault. -/

namespace Sys2Proof.Machine

open Sys2Proof

/-- A result that is a next state or a fault (00_scope.md R12). -/
structure Answers (r : Result) : Prop where
  ne_refused : ∀ x, r ≠ .refused x

namespace Answers

theorem next (s : State) : Answers (.next s) := ⟨by simp⟩

theorem fault (f : Fault) : Answers (.fault f) := ⟨by simp⟩

theorem andThen {r : Result} {k : State → Result} (hr : Answers r) (hk : ∀ s, Answers (k s)) :
    Answers (andThen r k) :=
  ⟨fun x => andThen_ne_refused (hr.ne_refused x) fun s => (hk s).ne_refused x⟩

/-- What ends by going on to one next state answers where it begins with what answers. -/
theorem andThen_next {r : Result} {k : State → State} (hr : Answers r) :
    Answers (Machine.andThen r (fun s => .next (k s))) := hr.andThen fun _ => next _

theorem faultIf {b : Bool} {c : UnpredictableCase} {k : Result} (hk : Answers k) : Answers (faultIf b c k) :=
  ⟨fun x => faultIf_ne_refused (hk.ne_refused x)⟩

theorem whenCond {c : Cond} {s : State} {k : Result} (hk : Answers k) : Answers (whenCond c s k) :=
  ⟨fun x => whenCond_ne_refused (hk.ne_refused x)⟩

theorem store (s : State) (q : Bool) (w : Width) (a v : Word) : Answers (store s q w a v) :=
  ⟨store_ne_refused s q w a v⟩

theorem restoreCpsr (s : State) : Answers (restoreCpsr s) := ⟨restoreCpsr_ne_refused s⟩

theorem raiseUndefined (s : State) : Answers (raiseUndefined s) := ⟨raiseUndefined_ne_refused s⟩

theorem raiseSoftwareInterrupt (s : State) : Answers (raiseSoftwareInterrupt s) :=
  ⟨raiseSoftwareInterrupt_ne_refused s⟩

/-! ## ARM operations -/

theorem dpWrite (op : DpOp) (sf : Bool) (rd : Reg) (out : Word × Psr) (s : State) :
    Answers (dpWrite op sf rd out s) := by
  unfold Machine.dpWrite
  split
  · exact next _
  · split
    · split
      · exact (restoreCpsr s).andThen_next
      · exact next _
    · exact next _

theorem dataProcessing (op : DpOp) (c : Cond) (sf : Bool) (rn rd : Reg) (o : Operand2) (s : State) :
    Answers (dataProcessing op c sf rn rd o s) :=
  whenCond <| faultIf <| faultIf <| faultIf <| dpWrite ..

theorem moveFromPsr (c : Cond) (r : Bool) (sbo : BitVec 4) (rd : Reg) (sbzHi sbzLo : BitVec 4) (s : State) :
    Answers (moveFromPsr c r sbo rd sbzHi sbzLo s) := by
  refine whenCond <| faultIf <| faultIf <| faultIf ?_
  split
  · split
    · exact fault _
    · exact next _
  · exact next _

theorem moveToPsr (r : Bool) (fm : BitVec 4) (v : Word) (s : State) : Answers (moveToPsr r fm v s) := by
  refine andThen_next ?_
  split
  · exact ⟨writeSpsr_ne_refused s v fm⟩
  · exact ⟨writeCpsr_ne_refused s v fm⟩

theorem loadTransfer (k : LoadKind) (x : Indexing) (rn rd : Reg) (o : Offset) (s : State) :
    Answers (loadTransfer k x rn rd o s) := by
  unfold Machine.loadTransfer
  dsimp only
  split <;> exact next _

theorem storeTransfer (w : Width) (x : Indexing) (rn rd : Reg) (o : Offset) (s : State) :
    Answers (storeTransfer w x rn rd o s) := (store ..).andThen_next

theorem storeBlock (s : State) (q : Bool) (a : Word) (words : List Word) : Answers (storeBlock s q a words) := by
  induction words generalizing s q a with
  | nil => exact next s
  | cons v rest ih => exact (store ..).andThen fun s1 => ih s1 true (a + 4)

theorem blockStore (s : State) (w : Bool) (rn : Reg) (start newBase : Word) (words : List Word) :
    Answers (blockStore s w rn start newBase words) := (storeBlock ..).andThen_next

theorem blockLoad (restore : Bool) (s : State) (w : Bool) (rn : Reg) (start newBase : Word) (regs : List Reg) :
    Answers (blockLoad restore s w rn start newBase regs) := by
  unfold Machine.blockLoad
  dsimp only
  split
  · exact next _
  · split
    · exact (restoreCpsr _).andThen_next
    · exact next _

theorem loadMultiple (c : Cond) (p u sf w : Bool) (rn : Reg) (list : BitVec 16) (s : State) :
    Answers (loadMultiple c p u sf w rn list s) := by
  refine whenCond <| faultIf <| faultIf ?_
  split
  · exact faultIf <| faultIf <| next _
  · exact faultIf <| blockLoad ..

/-! ## Thumb operations -/

theorem writeHigh (rd : Reg) (v : Word) (s : State) : Answers (writeHigh rd v s) := by
  unfold Machine.writeHigh
  split <;> exact next _

theorem thumbBranchCond (c : Cond) (off : BitVec 8) (s : State) : Answers (thumbBranchCond c off s) := by
  unfold Machine.thumbBranchCond
  split <;> exact next _

end Answers

/-- Every shared operation answers a next state or a fault. -/
theorem answers_holdsOfOperations : HoldsOfOperations (fun _ r => Answers r) where
  dataProcessing := .dataProcessing
  moveFromPsr := .moveFromPsr
  moveToPsrReg _ _ _ _ _ _ _ := .whenCond <| .faultIf <| .faultIf <| .faultIf <| .moveToPsr ..
  moveToPsrImm _ _ _ _ _ _ _ := .whenCond <| .faultIf <| .moveToPsr ..
  multiply _ _ _ _ _ _ _ _ := .whenCond <| .faultIf <| .faultIf <| .faultIf <| .faultIf <| .next _
  multiplyLong _ _ _ _ _ _ _ _ _ := .whenCond <| .faultIf <| .faultIf <| .faultIf <| .next _
  swap _ _ _ _ _ _ _ :=
    .whenCond <| .faultIf <| .faultIf <| .faultIf <| .faultIf <| .andThen_next <| .store ..
  loadWordByte _ _ _ _ _ _ _ := .whenCond <| .faultIf <| .faultIf <| .loadTransfer ..
  storeWordByte _ _ _ _ _ _ _ := .whenCond <| .faultIf <| .faultIf <| .storeTransfer ..
  loadHalfword _ _ _ _ _ _ _ _ := .whenCond <| .faultIf <| .faultIf <| .faultIf <| .loadTransfer ..
  storeHalfword _ _ _ _ _ _ _ := .whenCond <| .faultIf <| .faultIf <| .faultIf <| .storeTransfer ..
  loadMultiple := .loadMultiple
  storeMultiple _ _ _ _ _ _ _ _ := .whenCond <| .faultIf <| .faultIf <| .faultIf <| .blockStore ..
  branch _ _ _ := .whenCond <| .next _
  branchLink _ _ _ := .whenCond <| .faultIf <| .next _
  branchExchange _ _ _ _ := .whenCond <| .faultIf <| .faultIf <| .next _
  undefinedArm _ s := .whenCond <| .raiseUndefined s
  softwareInterruptArm _ s := .whenCond <| .raiseSoftwareInterrupt s
  thumbLogical _ _ _ _ := .next _
  thumbArith _ _ _ := .next _
  thumbShiftReg _ _ _ _ := .next _
  thumbTest _ _ _ := .next _
  thumbCompare _ _ := .next _
  thumbMultiply _ _ _ := .faultIf <| .next _
  thumbAddHigh _ _ _ _ _ := .faultIf <| .faultIf <| .writeHigh ..
  thumbCmpHigh _ _ _ _ _ := .faultIf <| .faultIf <| .next _
  thumbMovHigh _ _ _ _ _ := .faultIf <| .faultIf <| .writeHigh ..
  thumbBranchExchange _ _ _ _ _ := .faultIf <| .faultIf <| .next _
  thumbLoad _ _ _ _ := .next _
  thumbStore _ _ _ _ := .andThen_next <| .store ..
  thumbAddress _ _ _ := .next _
  thumbStackMove _ _ := .next _
  onStack _ _ hk := .faultIf hk
  thumbPush _ _ _ := .faultIf <| .blockStore ..
  thumbPop _ _ _ := .faultIf <| .blockLoad ..
  thumbStoreMultiple _ _ _ := .blockStore ..
  thumbLoadMultiple _ _ _ := .blockLoad ..
  thumbBranchCond := .thumbBranchCond
  thumbJump _ _ := .next _
  thumbLinkFirst _ _ := .faultIf <| .next _
  thumbLinkSecond _ _ := .faultIf <| .next _
  undefinedThumb := .raiseUndefined
  softwareInterruptThumb := .raiseSoftwareInterrupt

/-- Settles O9: it holds, since every instruction is one of the shared operations and each of them answers. -/
theorem noInstructionRefused : Obligations.NoInstructionRefused :=
  fun i s => (answers_holdsOfOperations.exec i s).ne_refused

end Sys2Proof.Machine


/-! What every shared operation keeps: the host's state and the canonical form of memory. -/

namespace Sys2Proof.Machine

open Sys2Proof

namespace KeepsAll

/-- An instruction that ends by the PC advance. -/
theorem advance {s u : State} (h : Keeps s u) : KeepsAll s (.next (advance u)) := .next (h.trans (.advance u))

/-- An instruction that ends by a PC write. -/
theorem writePc {s u : State} (v : Word) (h : Keeps s u) : KeepsAll s (.next (writePc u v)) :=
  .next (h.trans (.writePc u v))

theorem store {s : State} {q : Bool} {w : Width} {a v : Word} : KeepsAll s (store s q w a v) := fun _ => Keeps.store

theorem restoreCpsr {s : State} : KeepsAll s (restoreCpsr s) := fun _ => Keeps.restoreCpsr

theorem raiseUndefined {s : State} : KeepsAll s (raiseUndefined s) :=
  .next ((Keeps.charge s 1).trans (.enterException ..))

theorem raiseSoftwareInterrupt {s : State} : KeepsAll s (raiseSoftwareInterrupt s) := .next (.enterException ..)

/-! ## ARM operations -/

theorem dpWrite {op : DpOp} {sf : Bool} {rd : Reg} {out : Word × Psr} {s : State} :
    KeepsAll s (dpWrite op sf rd out s) := by
  unfold Machine.dpWrite
  split
  · exact advance (.setCpsr s _)
  · split
    · split
      · exact restoreCpsr.andThen fun u => writePc _ (.refl u)
      · exact writePc _ (.refl s)
    · refine advance (Keeps.trans ?_ (.setReg _ rd _))
      split
      · exact .setCpsr s _
      · exact .refl s

theorem moveFromPsr {c : Cond} {r : Bool} {sbo : BitVec 4} {rd : Reg} {sbzHi sbzLo : BitVec 4} {s : State} :
    KeepsAll s (moveFromPsr c r sbo rd sbzHi sbzLo s) := by
  refine whenCond <| faultIf <| faultIf <| faultIf ?_
  split
  · split
    · exact fault s _
    · exact advance (.setReg s rd _)
  · exact advance ((Keeps.drew s).trans (.setReg _ rd _))

theorem moveToPsr {r : Bool} {fm : BitVec 4} {v : Word} {s : State} : KeepsAll s (moveToPsr r fm v s) := by
  refine andThen ?_ fun u => advance (.refl u)
  split
  · exact fun _ => Keeps.writeSpsr
  · exact fun _ => Keeps.writeCpsr

theorem multiply {acc : Bool} {c : Cond} {sf : Bool} {rd rn rs rm : Reg} {s : State} :
    KeepsAll s (multiply acc c sf rd rn rs rm s) := by
  refine whenCond <| faultIf <| faultIf <| faultIf <| faultIf <| advance (Keeps.trans ?_ (.setReg _ rd _))
  split
  · exact ((Keeps.charge s _).trans (.drew _)).trans (.setCpsr _ _)
  · exact .charge s _

theorem multiplyLong {signed acc : Bool} {c : Cond} {sf : Bool} {rdHi rdLo rs rm : Reg} {s : State} :
    KeepsAll s (multiplyLong signed acc c sf rdHi rdLo rs rm s) := by
  refine whenCond <| faultIf <| faultIf <| faultIf <|
    advance (Keeps.trans (Keeps.trans ?_ (.setReg _ rdLo _)) (.setReg _ rdHi _))
  split
  · exact (((Keeps.charge s _).trans (.drew _)).trans (.drew _)).trans (.setCpsr _ _)
  · exact .charge s _

end KeepsAll

theorem Keeps.writeBase (s : State) (x : Indexing) (rn : Reg) (v : Word) : Keeps s (writeBase s x rn v) := by
  unfold Machine.writeBase
  split
  · exact .setReg s rn v
  · exact .refl s

theorem Keeps.blockLoaded (s : State) (w : Bool) (rn : Reg) (start newBase : Word) (regs : List Reg) :
    Keeps s (blockLoaded s w rn start newBase regs) := by
  refine Keeps.trans ((((Keeps.charge s 1).trans (.noteBlockLoads _ false start regs))).trans ?_) (.setRegs _ _)
  split
  · exact .setReg _ rn _
  · exact .refl _

namespace KeepsAll

theorem loadTransfer {k : LoadKind} {x : Indexing} {rn rd : Reg} {o : Offset} {s : State} :
    KeepsAll s (loadTransfer k x rn rd o s) := by
  have loaded : Keeps s (Machine.writeBase (noteLoad (charge s 1) false k (transferAddr s x rn o)) x rn
      (offsetAddr s x rn o)) := ((Keeps.charge s 1).trans (.noteLoad ..)).trans (.writeBase ..)
  unfold Machine.loadTransfer
  dsimp only
  split
  · exact writePc _ loaded
  · exact advance (loaded.trans (.setReg _ rd _))

theorem storeTransfer {w : Width} {x : Indexing} {rn rd : Reg} {o : Offset} {s : State} :
    KeepsAll s (storeTransfer w x rn rd o s) := store.andThen fun u => advance (.writeBase u x rn _)

theorem blockStore {s : State} {w : Bool} {rn : Reg} {start newBase : Word} {words : List Word} :
    KeepsAll s (blockStore s w rn start newBase words) := by
  refine andThen (fun _ => Keeps.storeBlock) fun u => ?_
  split
  · exact advance (.setReg u rn _)
  · exact advance (.refl u)

theorem blockLoad {restore : Bool} {s : State} {w : Bool} {rn : Reg} {start newBase : Word} {regs : List Reg} :
    KeepsAll s (blockLoad restore s w rn start newBase regs) := by
  have loaded := Keeps.blockLoaded s w rn start newBase regs
  unfold Machine.blockLoad
  dsimp only
  split
  · exact advance loaded
  · split
    · exact .from loaded (restoreCpsr.andThen fun u => writePc _ (.refl u))
    · exact writePc _ loaded

theorem blockLoadUser {s : State} {start : Word} {regs : List Reg} : KeepsAll s (blockLoadUser s start regs) :=
  .next <| (Keeps.charge s 1).trans <| (Keeps.noteBlockLoads ..).trans <| (Keeps.setUsrRegs ..).trans <|
    (Keeps.advance _).trans (.setHazard _ true)

theorem loadMultiple {c : Cond} {p u sf w : Bool} {rn : Reg} {list : BitVec 16} {s : State} :
    KeepsAll s (loadMultiple c p u sf w rn list s) := by
  refine whenCond <| faultIf <| faultIf ?_
  split
  · exact faultIf <| faultIf <| blockLoadUser
  · exact faultIf <| blockLoad

theorem swap {byte : Bool} {c : Cond} {rn rd : Reg} {sbz : BitVec 4} {rm : Reg} {s : State} :
    KeepsAll s (swap byte c rn rd sbz rm s) := by
  refine whenCond <| faultIf <| faultIf <| faultIf <| faultIf ?_
  exact .from ((Keeps.charge s 1).trans (.noteLoad ..)) (store.andThen fun u => advance (.setReg u rd _))

theorem exchange {s : State} {target : Word} : KeepsAll s (.next (exchange s target)) := writePc _ (.setCpsr s _)

/-! ## Thumb operations -/

theorem thumbResult {rd : LowReg} {r : Word} {p : Psr} {s : State} : KeepsAll s (thumbResult rd r p s) :=
  advance ((Keeps.setCpsr s p).trans (.setReg ..))

theorem writeHigh {rd : Reg} {v : Word} {s : State} : KeepsAll s (writeHigh rd v s) := by
  unfold Machine.writeHigh
  split
  · exact writePc v (.refl s)
  · exact advance (.setReg s rd v)

theorem thumbBranchCond {c : Cond} {off : BitVec 8} {s : State} : KeepsAll s (thumbBranchCond c off s) := by
  unfold Machine.thumbBranchCond
  split
  · exact writePc _ (.refl s)
  · exact advance (.refl s)

end KeepsAll

/-- Every shared operation keeps what no instruction undoes. -/
theorem keepsAll_holdsOfOperations : HoldsOfOperations KeepsAll where
  dataProcessing _ _ _ _ _ o s := .whenCond <| .faultIf <| .faultIf <| .faultIf <|
    .from (.charge s o.internal) .dpWrite
  moveFromPsr _ _ _ _ _ _ _ := .moveFromPsr
  moveToPsrReg _ _ _ _ _ _ _ := .whenCond <| .faultIf <| .faultIf <| .faultIf <| .moveToPsr
  moveToPsrImm _ _ _ _ _ _ _ := .whenCond <| .faultIf <| .moveToPsr
  multiply _ _ _ _ _ _ _ _ := .multiply
  multiplyLong _ _ _ _ _ _ _ _ _ := .multiplyLong
  swap _ _ _ _ _ _ _ := .swap
  loadWordByte _ _ _ _ _ _ _ := .whenCond <| .faultIf <| .faultIf <| .loadTransfer
  storeWordByte _ _ _ _ _ _ _ := .whenCond <| .faultIf <| .faultIf <| .storeTransfer
  loadHalfword _ _ _ _ _ _ _ _ := .whenCond <| .faultIf <| .faultIf <| .faultIf <| .loadTransfer
  storeHalfword _ _ _ _ _ _ _ := .whenCond <| .faultIf <| .faultIf <| .faultIf <| .storeTransfer
  loadMultiple _ _ _ _ _ _ _ _ := .loadMultiple
  storeMultiple _ _ _ _ _ _ _ _ := .whenCond <| .faultIf <| .faultIf <| .faultIf <| .blockStore
  branch _ _ s := .whenCond <| .writePc _ (.refl s)
  branchLink _ _ s := .whenCond <| .faultIf <| .writePc _ (.setReg s 14 _)
  branchExchange _ _ _ _ := .whenCond <| .faultIf <| .faultIf <| .exchange
  undefinedArm _ _ := .whenCond <| .raiseUndefined
  softwareInterruptArm _ _ := .whenCond <| .raiseSoftwareInterrupt
  thumbLogical _ _ _ _ := .thumbResult
  thumbArith _ _ _ := .thumbResult
  thumbShiftReg _ _ _ s := .from (.charge s 1) .thumbResult
  thumbTest _ _ s := .advance (.setCpsr s _)
  thumbCompare _ s := .advance (.setCpsr s _)
  thumbMultiply _ _ s := .faultIf <| .from ((Keeps.charge s _).trans (.drew _)) .thumbResult
  thumbAddHigh _ _ _ _ _ := .faultIf <| .faultIf <| .writeHigh
  thumbCmpHigh _ _ _ _ s := .faultIf <| .faultIf <| .advance (.setCpsr s _)
  thumbMovHigh _ _ _ _ _ := .faultIf <| .faultIf <| .writeHigh
  thumbBranchExchange _ _ _ _ _ := .faultIf <| .faultIf <| .exchange
  thumbLoad _ _ _ s := .advance <| ((Keeps.charge s 1).trans (.noteLoad ..)).trans (.setReg ..)
  thumbStore _ _ _ _ := KeepsAll.store.andThen fun u => .advance (.refl u)
  thumbAddress _ _ s := .advance (.setReg s _ _)
  thumbStackMove _ s := .advance (.setReg s 13 _)
  onStack _ _ hk := .faultIf hk
  thumbPush _ _ _ := .faultIf <| .blockStore
  thumbPop _ _ _ := .faultIf <| .blockLoad
  thumbStoreMultiple _ _ _ := .blockStore
  thumbLoadMultiple _ _ _ := .blockLoad
  thumbBranchCond _ _ _ := .thumbBranchCond
  thumbJump s v := .writePc v (.refl s)
  thumbLinkFirst _ s := .faultIf <| .advance (.setReg s 14 _)
  thumbLinkSecond _ s := .faultIf <| .writePc _ (.setReg s 14 _)
  undefinedThumb _ := .raiseUndefined
  softwareInterruptThumb _ := .raiseSoftwareInterrupt

/-- No instruction undoes what `Keeps` lists. -/
theorem exec_keeps {i : Instr} {s t : State} (h : exec i s = .next t) : Keeps s t :=
  keepsAll_holdsOfOperations.exec i s t h

/-! ## A whole step -/

/-- What a step can do: nothing while the host holds the core, take the IRQ, or execute one instruction. -/
theorem step_eq_next {s t : State} (h : step s = .next t) :
    t = s ∨ t = irqStep s ∨ ∃ u, exec (decode (fetchCode s)) (fetched s) = .next u ∧ t = debit s u := by
  unfold step at h
  split at h
  · cases h; exact .inl rfl
  · split at h
    · cases h; exact .inr (.inl rfl)
    · obtain ⟨u, hu, h⟩ := andThen_eq_next.1 h
      cases h
      exact .inr (.inr ⟨u, hu, rfl⟩)

theorem sameHostState_debit (s u : State) : SameHostState u (debit s u) := by simp [SameHostState]

theorem sameHostState_irqStep (s : State) : SameHostState s (irqStep s) :=
  Keeps.sameHost_trans ((Keeps.setBus s []).trans <| (Keeps.charge ..).trans (.enterException ..)).host
    (sameHostState_debit s _)

/-- Settles O55: it holds, since each of the three things a step can do leaves the host's state. -/
theorem hostStateUntouched : Obligations.HostStateUntouched := by
  intro s t h
  obtain rfl | rfl | ⟨u, hu, rfl⟩ := step_eq_next h
  · exact Keeps.sameHost_refl t
  · exact sameHostState_irqStep s
  · have hfetch : SameHostState s (fetched s) := Keeps.sameHost_refl s
    exact Keeps.sameHost_trans (Keeps.sameHost_trans hfetch (exec_keeps hu).host) (sameHostState_debit s u)

end Sys2Proof.Machine


/-! How every instruction ends: with R15 aligned, and with no user-bank hazard open but after an LDM of the User
bank (10_state.md R40, R45 (f)). -/

namespace Sys2Proof.Machine

open Sys2Proof

/-! ## Operations that leave R15 and T -/

/-- R15 and T as they were, so that the PC advance goes to the next instruction. -/
structure SamePc (s u : State) : Prop where
  pc : u.pc = s.pc
  t : u.cpsr.t = s.cpsr.t

namespace SamePc

theorem refl (s : State) : SamePc s s := ⟨rfl, rfl⟩

theorem trans {s u v : State} (h : SamePc s u) (k : SamePc u v) : SamePc s v := ⟨k.pc.trans h.pc, k.t.trans h.t⟩

theorem charge (s : State) (n : Nat) : SamePc s (charge s n) := ⟨rfl, rfl⟩

theorem drew (s : State) : SamePc s (drew s) := ⟨rfl, rfl⟩

theorem noteLoad (s : State) (q : Bool) (k : LoadKind) (a : Word) : SamePc s (noteLoad s q k a) := ⟨rfl, rfl⟩

theorem noteBlockLoads (s : State) (q : Bool) (a : Word) (rs : List Reg) : SamePc s (noteBlockLoads s q a rs) :=
  ⟨by simp, by simp⟩

theorem setCpsr {s : State} {p : Psr} (h : p.t = s.cpsr.t) : SamePc s { s with cpsr := p } := ⟨rfl, h⟩

theorem setReg {s : State} {r : Reg} {v : Word} (h : r ≠ 15) : SamePc s (setReg s r v) :=
  ⟨setReg_pc_of_ne s r v h, by simp⟩

theorem setRegs (s : State) (l : List (Reg × Word)) : SamePc s (setRegs s l) := ⟨by simp, by simp⟩

theorem setUsrRegs {s : State} {l : List (Reg × Word)} (h : ∀ x ∈ l, x.1 ≠ 15) : SamePc s (setUsrRegs s l) := by
  induction l generalizing s with
  | nil => exact refl s
  | cons x rest ih =>
    have first : SamePc s (setUsrReg s x.1 x.2) := ⟨setUsrReg_pc_of_ne s x.1 x.2 (h x (by simp)), by simp⟩
    exact first.trans (ih fun y hy => h y (by simp [hy]))

theorem writeBase {s : State} {x : Indexing} {rn : Reg} {v : Word} (h : (x.writeback && rn == 15) = false) :
    SamePc s (writeBase s x rn v) := by
  unfold Machine.writeBase
  split
  · next hw => exact setReg (by simpa [hw] using h)
  · exact refl s

theorem store {s u : State} {q : Bool} {w : Width} {a v : Word} (h : store s q w a v = .next u) : SamePc s u := by
  obtain ⟨-, x, rfl⟩ := store_eq_next h
  exact ⟨rfl, rfl⟩

theorem storeBlock {s u : State} {q : Bool} {a : Word} {l : List Word} (h : storeBlock s q a l = .next u) :
    SamePc s u := by
  induction l generalizing s q a with
  | nil => cases h; exact refl _
  | cons v rest ih =>
    obtain ⟨s1, hs, h⟩ := andThen_eq_next.1 h
    exact (store hs).trans (ih h)

theorem writeCpsr {s u : State} {v : Word} {m : BitVec 4} (h : writeCpsr s v m = .next u) : SamePc s u := by
  obtain ⟨p, rfl, hp, -⟩ := writeCpsr_eq_next h
  exact setCpsr hp

theorem writeSpsr {s u : State} {v : Word} {m : BitVec 4} (h : writeSpsr s v m = .next u) : SamePc s u := by
  obtain ⟨n, -, rfl⟩ := writeSpsr_eq_next h
  exact ⟨by simp, by simp⟩

theorem blockLoaded {s : State} {w : Bool} {rn : Reg} {start newBase : Word} {regs : List Reg} (h : rn ≠ 15) :
    SamePc s (blockLoaded s w rn start newBase regs) := by
  refine trans (((charge s 1).trans (noteBlockLoads _ false start regs)).trans ?_) (setRegs _ _)
  split
  · exact setReg h
  · exact refl _

end SamePc

/-! ## Alignment of R15 -/

/-- Aligning to a halfword clears the remainder modulo 2. -/
theorem alignHalf_toNat (a : Word) : (alignHalf a).toNat = a.toNat / 2 * 2 := by
  have shifted : alignHalf a = (a >>> 1) <<< 1 := by
    apply BitVec.eq_of_getLsbD_eq
    intro i hi
    simp only [alignHalf, BitVec.getLsbD_and, BitVec.getLsbD_shiftLeft, BitVec.getLsbD_ushiftRight]
    interval_cases i <;> simp
  rw [shifted]
  simp only [BitVec.toNat_shiftLeft, BitVec.toNat_ushiftRight, Nat.shiftLeft_eq, Nat.shiftRight_eq_div_pow]
  have := a.isLt
  omega

/-- An aligned address stays aligned one instruction further. -/
theorem fetchAddress_add_width {t : Bool} {a : Word} (h : fetchAddress t a = a) :
    fetchAddress t (a + if t then 2 else 4) = a + if t then 2 else 4 := by
  cases t with
  | false =>
    have h : alignWord a = a := h
    exact (alignWord_add a 1).trans (by rw [h]; rfl)
  | true =>
    have h : (alignHalf a).toNat = a.toNat := congrArg BitVec.toNat h
    rw [alignHalf_toNat] at h
    refine BitVec.eq_of_toNat_eq (show (alignHalf (a + 2)).toNat = (a + 2).toNat from ?_)
    simp only [alignHalf_toNat, BitVec.toNat_add, show (2 : Word).toNat = 2 from rfl]
    omega

theorem pcAligned_advance {s u : State} (h : SamePc s u) (hs : PcAligned s) : PcAligned (advance u) := by
  unfold PcAligned at hs ⊢
  simp only [advance_cpsr, advance_pc, instrWidth, h.t, h.pc]
  exact fetchAddress_add_width hs

theorem pcAligned_writePc (u : State) (v : Word) : PcAligned (writePc u v) := fetchAddress_idem u.cpsr.t v

theorem pcAligned_enterException (k : ExceptionKind) (ret : Word) (u : State) :
    PcAligned (enterException k ret u) := by
  unfold PcAligned
  cases k <;> simp [fetchAddress] <;> rfl

/-! ## Ends -/

/-- How an instruction ends: R15 aligned if it was, and the user-bank hazard open only if `opens`. -/
structure Ends (opens : Bool) (s t : State) : Prop where
  pc : PcAligned s → PcAligned t
  hazard : t.userBankHazard = true → opens = true

/-- Every next state of a result is such an end. -/
structure EndsAll (opens : Bool) (s : State) (r : Result) : Prop where
  ends : ∀ t, r = .next t → Ends opens s t

namespace EndsAll

variable {o : Bool} {s : State}

theorem next {t : State} (h : Ends o s t) : EndsAll o s (.next t) := ⟨fun _ e => by cases e; exact h⟩

theorem fault {f : Fault} : EndsAll o s (.fault f) := ⟨fun _ e => by cases e⟩

theorem advance {u : State} (h : SamePc s u) : EndsAll o s (.next (advance u)) :=
  next ⟨pcAligned_advance h, fun e => by cases e⟩

theorem writePc {u : State} {v : Word} : EndsAll o s (.next (writePc u v)) :=
  next ⟨fun _ => pcAligned_writePc u v, fun e => by cases e⟩

theorem exchange {u : State} {v : Word} : EndsAll o s (.next (exchange u v)) := writePc

theorem enterException {k : ExceptionKind} {ret : Word} {u : State} :
    EndsAll o s (.next (enterException k ret u)) :=
  next ⟨fun _ => pcAligned_enterException k ret u, fun e => by cases e⟩

theorem raiseUndefined {u : State} : EndsAll o s (raiseUndefined u) := enterException

theorem raiseSoftwareInterrupt {u : State} : EndsAll o s (raiseSoftwareInterrupt u) := enterException

theorem faultIf {b : Bool} {c : UnpredictableCase} {k : Result} (h : b = false → EndsAll o s k) :
    EndsAll o s (faultIf b c k) :=
  ⟨fun t e => (h (faultIf_eq_next.1 e).1).ends t (faultIf_eq_next.1 e).2⟩

theorem whenCond {c : Cond} {k : Result} (h : EndsAll o s k) : EndsAll o s (whenCond c s k) := by
  refine ⟨fun t e => ?_⟩
  obtain ⟨-, e⟩ | ⟨-, rfl⟩ := whenCond_eq_next e
  · exact h.ends t e
  · exact (advance (.refl s)).ends _ rfl

/-- An operation that leaves R15 and T, then the PC advance. -/
theorem thenAdvance {r : Result} {k : State → State} (hr : ∀ u, r = .next u → SamePc s u)
    (hk : ∀ u, SamePc u (k u)) : EndsAll o s (andThen r fun u => .next (Machine.advance (k u))) := by
  refine ⟨fun t e => ?_⟩
  obtain ⟨u, hu, e⟩ := andThen_eq_next.1 e
  exact (advance ((hr u hu).trans (hk u))).ends t e

theorem thenWritePc {r : Result} {v : Word} :
    EndsAll o s (andThen r fun u => .next (Machine.writePc u v)) := by
  refine ⟨fun t e => ?_⟩
  obtain ⟨u, -, e⟩ := andThen_eq_next.1 e
  exact writePc.ends t e

/-- What ends like this from a state with the same R15 and T. -/
theorem after {u : State} {r : Result} (h : SamePc s u) (k : EndsAll o u r) : EndsAll o s r := by
  refine ⟨fun t e => ⟨fun hs => (k.ends t e).pc ?_, (k.ends t e).hazard⟩⟩
  unfold PcAligned
  rw [h.t, h.pc]
  exact hs

/-! ## ARM operations -/

/-- No operation writes T with its flags. -/
theorem dpCompute_t (op : DpOp) (a b : Word) (sc : Bool) (p : Psr) : (dpCompute op a b sc p).2.t = p.t := by
  cases op <;> rfl

theorem dpWrite {op : DpOp} {sf : Bool} {rd : Reg} {out : Word × Psr} (h : out.2.t = s.cpsr.t) :
    EndsAll o s (dpWrite op sf rd out s) := by
  unfold Machine.dpWrite
  split
  · exact advance (.setCpsr h)
  · split
    · split
      · exact thenWritePc
      · exact writePc
    · next hrd =>
      refine advance (SamePc.trans ?_ (.setReg hrd))
      split
      · exact .setCpsr h
      · exact .refl s

theorem dataProcessing {op : DpOp} {c : Cond} {sf : Bool} {rn rd : Reg} {x : Operand2} :
    EndsAll o s (dataProcessing op c sf rn rd x s) :=
  whenCond <| faultIf fun _ => faultIf fun _ => faultIf fun _ =>
    after (.charge s x.internal) (dpWrite (dpCompute_t ..))

theorem moveFromPsr {c : Cond} {r : Bool} {sbo : BitVec 4} {rd : Reg} {sbzHi sbzLo : BitVec 4} :
    EndsAll o s (moveFromPsr c r sbo rd sbzHi sbzLo s) := by
  refine whenCond <| faultIf fun _ => faultIf fun hrd => faultIf fun _ => ?_
  have hrd : rd ≠ 15 := by simpa using hrd
  split
  · split
    · exact fault
    · exact advance (.setReg hrd)
  · exact advance ((SamePc.drew s).trans (.setReg hrd))

theorem moveToPsr {r : Bool} {fm : BitVec 4} {v : Word} : EndsAll o s (moveToPsr r fm v s) := by
  refine thenAdvance (fun u hu => ?_) SamePc.refl
  split at hu
  · exact .writeSpsr hu
  · exact .writeCpsr hu

theorem multiply {acc : Bool} {c : Cond} {sf : Bool} {rd rn rs rm : Reg} :
    EndsAll o s (multiply acc c sf rd rn rs rm s) := by
  refine whenCond <| faultIf fun _ => faultIf fun hpc => faultIf fun _ => faultIf fun _ => ?_
  simp only [Bool.or_eq_false_iff, beq_eq_false_iff_ne] at hpc
  obtain ⟨⟨⟨hrd, -⟩, -⟩, -⟩ := hpc
  refine advance (SamePc.trans ?_ (.setReg hrd))
  split
  · exact ((SamePc.charge s _).trans (.drew _)).trans (.setCpsr rfl)
  · exact .charge s _

theorem multiplyLong {signed acc : Bool} {c : Cond} {sf : Bool} {rdHi rdLo rs rm : Reg} :
    EndsAll o s (multiplyLong signed acc c sf rdHi rdLo rs rm s) := by
  refine whenCond <| faultIf fun hpc => faultIf fun _ => faultIf fun _ => ?_
  simp only [Bool.or_eq_false_iff, beq_eq_false_iff_ne] at hpc
  obtain ⟨⟨⟨hHi, hLo⟩, -⟩, -⟩ := hpc
  refine advance (SamePc.trans (SamePc.trans ?_ (.setReg hLo)) (.setReg hHi))
  split
  · exact (((SamePc.charge s _).trans (.drew _)).trans (.drew _)).trans (.setCpsr rfl)
  · exact .charge s _

theorem swap {byte : Bool} {c : Cond} {rn rd : Reg} {sbz : BitVec 4} {rm : Reg} :
    EndsAll o s (swap byte c rn rd sbz rm s) := by
  refine whenCond <| faultIf fun _ => faultIf fun hpc => faultIf fun _ => faultIf fun _ => ?_
  simp only [Bool.or_eq_false_iff, beq_eq_false_iff_ne] at hpc
  obtain ⟨⟨hrd, -⟩, -⟩ := hpc
  exact thenAdvance (fun _ hu => ((SamePc.charge s 1).trans (.noteLoad ..)).trans (.store hu)) fun _ => .setReg hrd

theorem loadTransfer {k : LoadKind} {x : Indexing} {rn rd : Reg} {off : Offset}
    (h : (x.writeback && rn == 15) = false) : EndsAll o s (loadTransfer k x rn rd off s) := by
  unfold Machine.loadTransfer
  dsimp only
  split
  · exact writePc
  · next hrd =>
    exact advance <| (((SamePc.charge s 1).trans (.noteLoad ..)).trans (.writeBase h)).trans (.setReg hrd)

theorem storeTransfer {w : Width} {x : Indexing} {rn rd : Reg} {off : Offset}
    (h : (x.writeback && rn == 15) = false) : EndsAll o s (storeTransfer w x rn rd off s) :=
  thenAdvance (fun _ => .store) fun _ => .writeBase h

theorem base_ne_pc_of_wordByte {byte : Bool} {x : Indexing} {rn rd : Reg} {off : Offset}
    (h : wordByteRestricted byte x rn rd off = false) : (x.writeback && rn == 15) = false := by
  simp only [wordByteRestricted, Bool.or_eq_false_iff] at h
  obtain ⟨⟨⟨-, hbase⟩, -⟩, -⟩ := h
  exact hbase

theorem base_ne_pc_of_halfword {x : Indexing} {rn rd : Reg} {off : Offset}
    (h : halfwordRestricted x rn rd off = false) : (x.writeback && rn == 15) = false := by
  simp only [halfwordRestricted, Bool.or_eq_false_iff] at h
  obtain ⟨⟨-, hbase⟩, -⟩ := h
  exact hbase

theorem blockStore {w : Bool} {rn : Reg} {start newBase : Word} {words : List Word} (h : rn ≠ 15) :
    EndsAll o s (blockStore s w rn start newBase words) := by
  refine thenAdvance (fun _ => .storeBlock) fun u => ?_
  split
  · exact .setReg h
  · exact .refl u

theorem blockLoad {restore w : Bool} {rn : Reg} {start newBase : Word} {regs : List Reg} (h : rn ≠ 15) :
    EndsAll o s (blockLoad restore s w rn start newBase regs) := by
  unfold Machine.blockLoad
  dsimp only
  split
  · exact advance (.blockLoaded h)
  · split
    · exact thenWritePc
    · exact writePc

theorem loadWordByte {byte : Bool} {c : Cond} {x : Indexing} {rn rd : Reg} {off : Offset} :
    EndsAll o s (loadWordByte byte c x rn rd off s) :=
  whenCond <| faultIf fun h => faultIf fun _ => loadTransfer (base_ne_pc_of_wordByte h)

theorem storeWordByte {byte : Bool} {c : Cond} {x : Indexing} {rn rd : Reg} {off : Offset} :
    EndsAll o s (storeWordByte byte c x rn rd off s) :=
  whenCond <| faultIf fun h => faultIf fun _ => storeTransfer (base_ne_pc_of_wordByte h)

theorem loadHalfword {k : LoadKind} {c : Cond} {x : Indexing} {rn rd : Reg} {sbz : BitVec 4} {off : Offset} :
    EndsAll o s (loadHalfword k c x rn rd sbz off s) :=
  whenCond <| faultIf fun _ => faultIf fun h => faultIf fun _ => loadTransfer (base_ne_pc_of_halfword h)

theorem storeHalfword {c : Cond} {x : Indexing} {rn rd : Reg} {sbz : BitVec 4} {off : Offset} :
    EndsAll o s (storeHalfword c x rn rd sbz off s) :=
  whenCond <| faultIf fun _ => faultIf fun h => faultIf fun _ => storeTransfer (base_ne_pc_of_halfword h)

/-- The one operation that leaves the hazard open (10_state.md R45 (f)). -/
theorem blockLoadUser {start : Word} {regs : List Reg} (h : 15 ∉ regs) :
    EndsAll true s (blockLoadUser s start regs) := by
  refine next ⟨fun hs => pcAligned_advance (s := s) (((SamePc.charge s 1).trans (.noteBlockLoads ..)).trans
    (.setUsrRegs fun x hx e => h ?_)) hs, fun _ => rfl⟩
  rw [← e, ← blockValues_map_fst (charge s 1) false start regs]
  exact List.mem_map_of_mem hx

theorem loadMultiple {c : Cond} {p u sf w : Bool} {rn : Reg} {list : BitVec 16} :
    EndsAll (sf && !(transferredRegs list).contains 15) s (loadMultiple c p u sf w rn list s) := by
  refine whenCond <| faultIf fun hrn => faultIf fun _ => ?_
  have hrn : rn ≠ 15 := by simpa using hrn
  split
  · next huser =>
    rw [huser]
    have h15 : 15 ∉ transferredRegs list := by simp_all
    exact faultIf fun _ => faultIf fun _ => blockLoadUser h15
  · exact faultIf fun _ => blockLoad hrn

theorem storeMultiple {c : Cond} {p u sf w : Bool} {rn : Reg} {list : BitVec 16} :
    EndsAll o s (storeMultiple c p u sf w rn list s) :=
  whenCond <| faultIf fun hrn => faultIf fun _ => faultIf fun _ => blockStore (by simpa using hrn)

/-! ## Thumb operations -/

theorem thumbResult {rd : LowReg} {r : Word} {p : Psr} (h : p.t = s.cpsr.t) : EndsAll o s (thumbResult rd r p s) :=
  advance ((SamePc.setCpsr h).trans (.setReg (lowReg_ne_pc rd)))

theorem writeHigh {rd : Reg} {v : Word} : EndsAll o s (writeHigh rd v s) := by
  unfold Machine.writeHigh
  split
  · exact writePc
  · next hrd => exact advance (.setReg hrd)

theorem thumbBranchCond {c : Cond} {off : BitVec 8} : EndsAll o s (thumbBranchCond c off s) := by
  unfold Machine.thumbBranchCond
  split
  · exact writePc
  · exact advance (.refl s)

theorem thumbLoad {k : LoadKind} {a : Word} {rd : LowReg} : EndsAll o s (thumbLoad k a rd s) :=
  advance (((SamePc.charge s 1).trans (.noteLoad ..)).trans (.setReg (lowReg_ne_pc rd)))

theorem thumbStore {w : Width} {a : Word} {rd : LowReg} : EndsAll o s (thumbStore w a rd s) :=
  thenAdvance (fun _ => .store) .refl

theorem thumbAddress {a : Word} {rd : LowReg} : EndsAll o s (thumbAddress a rd s) :=
  advance (.setReg (lowReg_ne_pc rd))

end EndsAll

/-- The instructions that may leave the hazard open: an LDM with S = 1 that does not transfer R15
(10_state.md R45 (f), 43_arm_load_store.md R308 (b)). -/
def opensHazard (i : Instr) : Bool :=
  match i with
  | .ldm _ _ _ sf _ _ list => sf && !(transferredRegs list).contains 15
  | _ => false

/-- Every instruction ends with R15 aligned, and opens the hazard only where `opensHazard` says so: each
constructor of `Instr` under the operation its meaning is. (`HoldsOfOperations` speaks of results alone; here what
is said of the result depends on the instruction.) -/
theorem exec_endsAll (i : Instr) (s : State) : EndsAll (opensHazard i) s (exec i s) := by
  cases i with
  | ldm => exact .loadMultiple
  | andImmShift | eorImmShift | subImmShift | rsbImmShift | addImmShift | adcImmShift | sbcImmShift | rscImmShift
  | tstImmShift | teqImmShift | cmpImmShift | cmnImmShift | orrImmShift | movImmShift | bicImmShift | mvnImmShift
  | andRegShift | eorRegShift | subRegShift | rsbRegShift | addRegShift | adcRegShift | sbcRegShift | rscRegShift
  | tstRegShift | teqRegShift | cmpRegShift | cmnRegShift | orrRegShift | movRegShift | bicRegShift | mvnRegShift
  | andImm | eorImm | subImm | rsbImm | addImm | adcImm | sbcImm | rscImm
  | tstImm | teqImm | cmpImm | cmnImm | orrImm | movImm | bicImm | mvnImm => exact .dataProcessing
  | mrs => exact .moveFromPsr
  | msrReg => exact .whenCond <| .faultIf fun _ => .faultIf fun _ => .faultIf fun _ => .moveToPsr
  | msrImm => exact .whenCond <| .faultIf fun _ => .moveToPsr
  | mul | mla => exact .multiply
  | umull | umlal | smull | smlal => exact .multiplyLong
  | swp | swpb => exact .swap
  | ldrImmPost | ldrtImm | ldrbImmPost | ldrbtImm | ldrImmPre | ldrbImmPre
  | ldrRegPost | ldrtReg | ldrbRegPost | ldrbtReg | ldrRegPre | ldrbRegPre => exact .loadWordByte
  | strImmPost | strtImm | strbImmPost | strbtImm | strImmPre | strbImmPre
  | strRegPost | strtReg | strbRegPost | strbtReg | strRegPre | strbRegPre => exact .storeWordByte
  | ldrhReg | ldrhImm | ldrsbReg | ldrsbImm | ldrshReg | ldrshImm => exact .loadHalfword
  | strhReg | strhImm => exact .storeHalfword
  | stm => exact .storeMultiple
  | b => exact .whenCond .writePc
  | bl => exact .whenCond <| .faultIf fun _ => .writePc
  | bx => exact .whenCond <| .faultIf fun _ => .faultIf fun _ => .exchange
  | swi => exact .whenCond .raiseSoftwareInterrupt
  | undefMisc01000020 | undefMisc01000040 | undefMisc01000080 | undefMisc01000010 | undefMisc01200030
  | undefMisc01200050 | undefMisc01400010 | undefMulSwap00400090 | undefMulSwap01100090 | undefMulSwap01200090
  | undefMulSwap01800090 | undefHalfStore | undefTstImm | undefArch
  | stc | ldc | cdp | mcr | mrc => exact .whenCond .raiseUndefined
  | tLslImm | tLsrImm | tAsrImm | tMovImm | tAnd | tEor | tOrr | tBic | tMvn
  | tAddReg | tSubReg | tAddImm3 | tSubImm3 | tAddImm8 | tSubImm8 | tAdc | tSbc | tNeg => exact .thumbResult rfl
  | tLslReg | tLsrReg | tAsrReg | tRorReg => exact .after (.charge s 1) (.thumbResult rfl)
  | tTst | tCmpImm | tCmpReg | tCmn => exact .advance (.setCpsr rfl)
  | tMul => exact .faultIf fun _ => .after ((SamePc.charge s _).trans (.drew _)) (.thumbResult rfl)
  | tAddHi | tMovHi => exact .faultIf fun _ => .faultIf fun _ => .writeHigh
  | tCmpHi => exact .faultIf fun _ => .faultIf fun _ => .advance (.setCpsr rfl)
  | tBx => exact .faultIf fun _ => .faultIf fun _ => .exchange
  | tLdrPc | tLdrsbReg | tLdrReg | tLdrhReg | tLdrbReg | tLdrshReg | tLdrImm | tLdrbImm | tLdrhImm =>
    exact .thumbLoad
  | tStrReg | tStrhReg | tStrbReg | tStrImm | tStrbImm | tStrhImm => exact .thumbStore
  | tLdrSp => exact .faultIf fun _ => .thumbLoad
  | tStrSp => exact .faultIf fun _ => .thumbStore
  | tAddPc => exact .thumbAddress
  | tAddSp => exact .faultIf fun _ => .thumbAddress
  | tSpAdd | tSpSub => exact .faultIf fun _ => .advance (.setReg (by decide))
  | tPush => exact .faultIf fun _ => .blockStore (by decide)
  | tPop => exact .faultIf fun _ => .blockLoad (by decide)
  | tStmia => exact .blockStore (lowReg_ne_pc _)
  | tLdmia => exact .blockLoad (lowReg_ne_pc _)
  | tBcondD0 | tBcondD8 | tBcondDC => exact .thumbBranchCond
  | tB => exact .writePc
  | tBlFirst => exact .faultIf fun _ => .advance (.setReg (by decide))
  | tBlSecond => exact .faultIf fun _ => .writePc
  | tSwi => exact .raiseSoftwareInterrupt
  | tUndefB1 | tUndefB8 | tUndefB2 | tUndefDE | tUndefE8 => exact .raiseUndefined

/-! ## The invariant -/

theorem inv_fetched {s : State} (h : s.Inv) : (fetched s).Inv := ⟨h.mem, h.pc⟩

theorem inv_debit (s : State) {u : State} (h : u.Inv) : (debit s u).Inv :=
  ⟨by simpa using h.mem, by simpa [PcAligned] using h.pc⟩

theorem inv_exec {i : Instr} {s t : State} (hs : s.Inv) (h : exec i s = .next t) : t.Inv :=
  ⟨(exec_keeps h).mem hs.mem, ((exec_endsAll i s).ends t h).pc hs.pc⟩

theorem inv_irqStep {s : State} (hs : s.Inv) : (irqStep s).Inv :=
  inv_debit s ⟨by simpa using hs.mem, pcAligned_enterException ..⟩

/-- Settles O56: it holds, since each of the three things a step can do keeps memory canonical and R15 aligned. -/
theorem stepKeepsInv : Obligations.StepKeepsInv := by
  intro s t hs h
  obtain rfl | rfl | ⟨u, hu, rfl⟩ := step_eq_next h
  · exact hs
  · exact inv_irqStep hs
  · exact inv_debit s (inv_exec (inv_fetched hs) hu)

end Sys2Proof.Machine


/-! The banks, the state after reset, the layout of the status word (10_state.md R31 to R48). -/

namespace Sys2Proof.Machine

open Sys2Proof Sys2Proof.Claims

/-! ## Banks -/

/-- Settles O10: it holds; the first three clauses are the finite table of banks, the last is what an access by
number is. -/
theorem bankTable : Obligations.BankTable := by
  refine ⟨fun m => ?_, fun m => ?_, by decide, fun _ _ _ => ⟨rfl, rfl, rfl, rfl⟩⟩
  · cases m <;> decide
  · cases m <;> decide

/-- Settles O11: it holds, since a write changes one physical register and a mode change none. -/
theorem modeSwitchKeepsBanks : Obligations.ModeSwitchKeepsBanks := by
  intro s r q v m
  simp only [readReg, setReg, readPhys_setCpsr]
  exact readPhys_writePhys s (bank s.cpsr.mode r) (bank m q) v

/-! ## Reset -/

theorem freshlyReset_hostReset (s : State) : FreshlyReset (hostReset s) := ⟨rfl, rfl, rfl, rfl, rfl, rfl, rfl⟩

theorem outsideKept_installReset (r s : State) : OutsideKept s (installReset r s) :=
  ⟨⟨rfl, rfl, rfl, rfl, rfl, rfl⟩, rfl, rfl, rfl⟩

theorem readPhys_installReset (r s : State) (p : PhysReg) : readPhys (installReset r s) p = readPhys r p := by
  cases p <;> rfl

theorem readSpsr_installReset (r s : State) (n : SpsrName) : readSpsr (installReset r s) n = readSpsr r n := by
  cases n <;> rfl

/-- Settles O12: it holds, since a reset takes registers and status from the state installed and the rest from the
state it meets. -/
theorem resetState : Obligations.ResetState :=
  ⟨⟨rfl, rfl, rfl, rfl, rfl, rfl, rfl⟩,
    fun s => ⟨freshlyReset_hostReset s, outsideKept_installReset State.reset s⟩,
    fun r s => ⟨readPhys_installReset r s, rfl, readSpsr_installReset r s, rfl, rfl, outsideKept_installReset r s⟩⟩

/-- Settles O13: it holds, R15 being 0 and memory empty. -/
theorem resetInvariant : Obligations.ResetInvariant := ⟨reset_mem_wf, rfl⟩

/-! ## The status word -/

theorem psrWord_flags (p : Psr) (r : BitVec 20) : (psrWord p r).getLsbD 31 = p.n ∧ (psrWord p r).getLsbD 30 = p.z
    ∧ (psrWord p r).getLsbD 29 = p.c ∧ (psrWord p r).getLsbD 28 = p.v := by
  unfold psrWord
  refine ⟨?_, ?_, ?_, ?_⟩ <;> (repeat rw [BitVec.getLsbD_append]) <;> simp

theorem psrWord_masks (p : Psr) (r : BitVec 20) :
    (psrWord p r).getLsbD 7 = p.i ∧ (psrWord p r).getLsbD 6 = p.f ∧ (psrWord p r).getLsbD 5 = p.t := by
  unfold psrWord
  refine ⟨?_, ?_, ?_⟩ <;> (repeat rw [BitVec.getLsbD_append]) <;> simp

/-- Below bits 27:8 lie the mode, T, F and I. -/
theorem psrWord_reserved (p : Psr) (r : BitVec 20) : (psrWord p r).extractLsb' 8 20 = r := by
  unfold psrWord
  iterate 4 rw [BitVec.extractLsb'_append_eq_of_le (by decide)]
  exact BitVec.extractLsb'_append_eq_right

theorem psrWord_mode (p : Psr) (r : BitVec 20) : (psrWord p r).extractLsb' 0 5 = p.mode.toBits :=
  BitVec.extractLsb'_append_eq_right

/-- Of the 32 values of five bits, seven are modes (10_state.md R32). -/
theorem modeOfBits_eq (b : BitVec 5) :
    modeOfBits b = if b = 0x10 then some .user else if b = 0x11 then some .fiq
      else if b = 0x12 then some .irq else if b = 0x13 then some .supervisor else if b = 0x17 then some .abort
      else if b = 0x1B then some .undefined else if b = 0x1F then some .system else none := by
  revert b; decide

/-- Settles O14: it holds, each field being read off the concatenation that `psrWord` is. -/
theorem psrLayout : Obligations.PsrLayout := by
  refine ⟨fun p r => ?_, modeOfBits_eq⟩
  obtain ⟨hn, hz, hc, hv⟩ := psrWord_flags p r
  obtain ⟨hi, hf, ht⟩ := psrWord_masks p r
  exact ⟨hn, hz, hc, hv, psrWord_reserved p r, hi, hf, ht, by rw [psrWord_mode, modeOfBits_toBits]⟩

end Sys2Proof.Machine


/-! An instruction that runs has passed its condition and its encoding checks (30_encoding.md R124, 60_exceptions.md
R499): what is left of its meaning. -/

namespace Sys2Proof.Machine

open Sys2Proof Sys2Proof.Claims

/-! ## Passed checks -/

@[simp] theorem firstDefect_cons_eq_none (bad : Bool) (u : UnpredictableCase)
    (rest : List (Bool × UnpredictableCase)) : firstDefect ((bad, u) :: rest) = none ↔ bad = false ∧ firstDefect rest = none := by
  cases bad <;> simp [firstDefect]

theorem defect_of_runs {i : Instr} {s : State} (hr : runs i s = true) : i.defect = none := by
  simp only [runs, Bool.and_eq_true] at hr
  exact Option.isNone_iff_eq_none.1 hr.2

theorem cond_of_runs {i : Instr} {s : State} {c : Cond} (hr : runs i s = true) (hc : condOf i = some c) :
    c ≠ .nv ∧ condHolds c s.cpsr = true := by
  simp only [runs, hc, Bool.and_eq_true, bne_iff_ne] at hr
  exact ⟨hr.1.1.2, hr.1.2⟩

theorem whenCond_of_runs {i : Instr} {s : State} {c : Cond} (hr : runs i s = true) (hc : condOf i = some c)
    (k : Result) : whenCond c s k = k :=
  whenCond_passes k (cond_of_runs hr hc).1 (cond_of_runs hr hc).2

/-- The encoding checks of an ARM instruction that runs have all passed. -/
theorem checks_of_runs {i : Instr} {s : State} {c : Cond} {checks : List (Bool × UnpredictableCase)}
    (hr : runs i s = true) (hd : i.defect = armDefect c checks) : firstDefect checks = none := by
  rw [defect_of_runs hr, armDefect] at hd
  exact ((firstDefect_cons_eq_none ..).1 hd.symm).2

theorem ready_iff {i : Instr} {s : State} {rs : List Reg} :
    ready i s rs = true ↔ runs i s = true ∧ bankHazard s rs = false := by simp [ready]

/-! ## Data processing -/

theorem dataProcessing_of_runs {i : Instr} {s : State} {op : DpOp} {c : Cond} {sf : Bool} {rn rd : Reg} {o : Operand2}
    (hr : runs i s = true) (hc : condOf i = some c) (hd : i.defect = dpDefect c op.isMove op.isTest rn rd o.rsIsPc) :
    dataProcessing op c sf rn rd o s = faultIf (bankHazard s (dpRegs op rn rd o)) .userBankHazard
      (dpWrite op sf rd (dpOutcome op rn o s) (charge s o.internal)) := by
  have checks := checks_of_runs hr hd
  rw [firstDefect_cons_eq_none, firstDefect_cons_eq_none] at checks
  obtain ⟨hsbz, hrs, -⟩ := checks
  rw [dataProcessing, whenCond_of_runs hr hc, dpSbzBad, hsbz, hrs]
  rfl

/-- A data-processing instruction that runs. -/
theorem exec_dpForm {i : Instr} {f : DpForm} {s : State} (h : dpForm i = some f) (hr : runs i s = true) :
    exec i s = faultIf (bankHazard s f.regs) .userBankHazard
      (dpWrite f.op f.sf f.rd (dpOutcome f.op f.rn f.o s) (charge s f.o.internal)) := by
  cases i with
  | andImmShift | eorImmShift | subImmShift | rsbImmShift | addImmShift | adcImmShift | sbcImmShift | rscImmShift
  | tstImmShift | teqImmShift | cmpImmShift | cmnImmShift | orrImmShift | movImmShift | bicImmShift | mvnImmShift
  | andRegShift | eorRegShift | subRegShift | rsbRegShift | addRegShift | adcRegShift | sbcRegShift | rscRegShift
  | tstRegShift | teqRegShift | cmpRegShift | cmnRegShift | orrRegShift | movRegShift | bicRegShift | mvnRegShift
  | andImm | eorImm | subImm | rsbImm | addImm | adcImm | sbcImm | rscImm
  | tstImm | teqImm | cmpImm | cmnImm | orrImm | movImm | bicImm | mvnImm =>
    cases h; exact dataProcessing_of_runs hr rfl rfl
  | _ => cases h

/-! ## Status transfers -/

/-- MRS of the SPSR, once it runs without meeting the hazard. -/
theorem exec_mrs_spsr {c : Cond} {sbo : BitVec 4} {rd : Reg} {hi lo : BitVec 4} {s : State}
    (h : ready (.mrs c true sbo rd hi lo) s [rd] = true) (hs : s.cpsr.mode.spsr = none) :
    exec (.mrs c true sbo rd hi lo) s = .fault (.unpredictable .spsrInUserOrSystem) := by
  obtain ⟨hr, hb⟩ := ready_iff.1 h
  have checks := checks_of_runs (c := c) hr rfl
  simp only [firstDefect_cons_eq_none] at checks
  obtain ⟨hsbo, hrd, -⟩ := checks
  change moveFromPsr c true sbo rd hi lo s = _
  rw [moveFromPsr, whenCond_of_runs hr rfl, hsbo, hrd, hb]
  simp [hs]

/-- The value of a rotated immediate: an amount of 0 rotates by nothing (40_shifter.md R185). -/
theorem rotatedImm_fst (rot : BitVec 4) (imm : BitVec 8) (c : Bool) :
    (rotatedImm rot imm c).1 = ((imm.setWidth 32 : Word)).rotateRight (2 * rot.toNat) := by
  unfold rotatedImm
  split
  · next h => simp [h, BitVec.rotateRight, BitVec.rotateRightAux]
  · rfl

/-- An MSR, once it runs without meeting the hazard. -/
theorem exec_msrForm {i : Instr} {f : MsrForm} {s : State} (h : msrForm i s = some f)
    (hready : ready i s f.regs = true) : exec i s = moveToPsr f.r f.fm f.v s := by
  obtain ⟨hr, hb⟩ := ready_iff.1 hready
  cases i with
  | msrReg c r fm sbo sbz rm =>
    cases h
    have checks := checks_of_runs (c := c) hr rfl
    simp only [firstDefect_cons_eq_none] at checks
    obtain ⟨hsbo, hrm, -⟩ := checks
    change moveToPsrReg c r fm sbo sbz rm s = _
    rw [moveToPsrReg, whenCond_of_runs hr rfl, hsbo, hrm, hb]
    rfl
  | msrImm c r fm sbo rot imm =>
    cases h
    have checks := checks_of_runs (c := c) hr rfl
    simp only [firstDefect_cons_eq_none] at checks
    change moveToPsrImm c r fm sbo rot imm s = _
    rw [moveToPsrImm, whenCond_of_runs hr rfl, checks.1, rotatedImm_fst]
    rfl
  | _ => cases h

/-! ## Writes of CPSR (10_state.md R41) -/

/-- In User mode, and without the c field, a write of CPSR reaches the flags alone. -/
theorem writeCpsr_flags {s : State} {mask : BitVec 4} (v : Word)
    (h : s.cpsr.mode = .user ∨ mask.getLsbD 0 = false) :
    writeCpsr s v mask = .next { s with cpsr := flagsOf s.cpsr v mask } := by
  unfold writeCpsr
  dsimp only
  generalize he : (if s.cpsr.mode.privileged = true then mask else mask &&& 0b1000#4) = eff
  have hflags : eff.getLsbD 3 = mask.getLsbD 3 := by
    rw [← he]; split <;> simp
  have hcontrol : eff.getLsbD 0 = false := by
    rw [← he]
    obtain h | h := h
    · simp [h, Mode.privileged]
    · split
      · exact h
      · simp
  rw [hflags, hcontrol]
  rfl

section
variable {s : State} {mask : BitVec 4} {v : Word}
variable (hmode : s.cpsr.mode ≠ .user) (hc : mask.getLsbD 0 = true)
include hmode hc

theorem writeCpsr_changes_t (ht : v.getLsbD 5 ≠ s.cpsr.t) :
    writeCpsr s v mask = .fault (.unpredictable .msrChangesT) := by
  simp only [writeCpsr, Mode.privileged, bne_iff_ne.2 hmode, bne_iff_ne.2 ht, hc, ↓reduceIte, faultIf_true]

theorem writeCpsr_no_mode (ht : v.getLsbD 5 = s.cpsr.t) (hm : modeOfBits (v.extractLsb' 0 5) = none) :
    writeCpsr s v mask = .fault (.invalidMode (v.extractLsb' 0 5)) := by
  simp only [writeCpsr, Mode.privileged, bne_iff_ne.2 hmode, ht, bne_self_eq_false, hc, ↓reduceIte, faultIf_false, hm]

theorem writeCpsr_mode {m : Mode} (ht : v.getLsbD 5 = s.cpsr.t) (hm : modeOfBits (v.extractLsb' 0 5) = some m) :
    writeCpsr s v mask = .next { s with cpsr :=
      { flagsOf s.cpsr v mask with i := v.getLsbD 7, f := v.getLsbD 6, mode := m } } := by
  simp only [writeCpsr, Mode.privileged, bne_iff_ne.2 hmode, ht, bne_self_eq_false, hc, ↓reduceIte, faultIf_false, hm]
  rfl

end

theorem flagsOf_t (p : Psr) (v : Word) (fm : BitVec 4) : (flagsOf p v fm).t = p.t := by
  unfold flagsOf
  split <;> rfl

/-- An instruction that writes CPSR but not its T bit, and advances. -/
theorem advance_setCpsr {s : State} {p : Psr} (ht : p.t = s.cpsr.t) :
    Advanced s (advance { s with cpsr := p }) ∧ FlagFrame [] s (advance { s with cpsr := p }) := by
  refine ⟨⟨by simp [instrWidth, ht], rfl, rfl⟩,
    ⟨fun q hq _ => ?_, fun n _ => ?_, fun _ => rfl, Keeps.sameHost_refl s⟩⟩
  · rw [readPhys_advance _ _ hq, readPhys_setCpsr]
  · cases n <;> rfl

/-- Settles O22: it holds, since in User mode the write reaches the flags alone and faults never. -/
theorem msrInUserMode : Obligations.MsrInUserMode := by
  intro i f s hf hready hcpsr huser
  rw [exec_msrForm hf hready, moveToPsr, hcpsr, if_neg (by simp), writeCpsr_flags f.v (.inl huser), andThen_next]
  exact ⟨_, rfl, rfl, advance_setCpsr (flagsOf_t ..)⟩

/-- Settles O23: it holds, by the four cases of a privileged write of CPSR. -/
theorem msrPrivileged : Obligations.MsrPrivileged := by
  intro i f s hf hready hcpsr hmode
  rw [exec_msrForm hf hready, moveToPsr, hcpsr, if_neg (by simp)]
  refine ⟨fun hc => ?_, fun hc ht => ?_, fun hc ht hm => ?_, fun hc ht m hm => ?_⟩
  · rw [writeCpsr_flags f.v (.inr hc), andThen_next]
    exact ⟨_, rfl, rfl, advance_setCpsr (flagsOf_t ..)⟩
  · rw [writeCpsr_changes_t hmode hc ht, andThen_fault]
  · rw [writeCpsr_no_mode hmode hc ht hm, andThen_fault]
  · rw [writeCpsr_mode hmode hc ht hm, andThen_next]
    exact ⟨_, rfl, rfl, advance_setCpsr (flagsOf_t ..)⟩

/-! ## Writes of an SPSR (10_state.md R43) -/

theorem mergeFields_byte (old v : Word) (mask : BitVec 4) {b : Nat} (hb : b < 4) :
    (mergeFields old v mask).extractLsb' (8 * b) 8 = (if mask.getLsbD b then v else old).extractLsb' (8 * b) 8 := by
  unfold mergeFields
  interval_cases b
  · exact BitVec.extractLsb'_append_eq_right
  · rw [BitVec.extractLsb'_append_eq_of_le (by decide)]
    exact BitVec.extractLsb'_append_eq_right
  · iterate 2 rw [BitVec.extractLsb'_append_eq_of_le (by decide)]
    exact BitVec.extractLsb'_append_eq_right
  · iterate 2 rw [BitVec.extractLsb'_append_eq_of_le (by decide)]
    exact BitVec.extractLsb'_append_eq_left

theorem advanced_setSpsr (s : State) (n : SpsrName) (v : Word) : Advanced s (advance (setSpsr s n v)) := by
  refine ⟨?_, rfl, ?_⟩ <;> simp [instrWidth]

theorem sameRegs_setSpsr (s : State) (n : SpsrName) (v : Word) : SameRegs [] s (advance (setSpsr s n v)) :=
  fun p hp _ => by rw [readPhys_advance _ _ hp, readPhys_setSpsr]

theorem sameSpsrs_setSpsr (s : State) (n : SpsrName) (v : Word) : SameSpsrs [n] s (advance (setSpsr s n v)) :=
  fun k hk => by rw [readSpsr_advance, readSpsr_setSpsr, if_neg (by simpa using hk)]

/-- Settles O24: it holds, since the new SPSR is the merge of the selected bytes, and without an SPSR the write
faults. -/
theorem msrSpsr : Obligations.MsrSpsr := by
  intro i f s hf hready hspsr
  rw [exec_msrForm hf hready, moveToPsr, hspsr, if_pos rfl, writeSpsr]
  refine ⟨fun n hn => ?_, fun hmode => ?_⟩
  · rw [hn]
    refine ⟨_, rfl, fun b hb => ?_, advanced_setSpsr .., by simp, sameRegs_setSpsr s n _, sameSpsrs_setSpsr s n _,
      fun a => by simp, ((Keeps.setSpsr s n _).trans (.advance _)).host⟩
    rw [readSpsr_advance, readSpsr_setSpsr, if_pos rfl]
    exact mergeFields_byte _ _ _ hb
  · rw [(spsr_eq_none_iff _).2 hmode]
    rfl

/-- Settles O25: it holds; the missing SPSR stops MRS itself, and the S form at its restore of CPSR. -/
theorem spsrAbsentFaults : Obligations.SpsrAbsentFaults := by
  intro i s hmode
  have hs : s.cpsr.mode.spsr = none := (spsr_eq_none_iff _).2 hmode
  refine ⟨fun c sbo rd hi lo hi' hready => ?_, fun f hf hready htest hrd hsf => ?_⟩
  · subst hi'
    exact exec_mrs_spsr hready hs
  · obtain ⟨hr, hb⟩ := ready_iff.1 hready
    rw [exec_dpForm hf hr, hb, faultIf_false, dpWrite, htest, hrd, hsf]
    simp [restoreCpsr, hs]

end Sys2Proof.Machine


/-! The user-bank hazard (10_state.md R45 (f)): what opens it, and that every instruction which accesses a banked
register checks it before it does anything else. -/

namespace Sys2Proof.Machine

open Sys2Proof Sys2Proof.Claims

/-! ## What opens the hazard -/

theorem opensHazard_eq_true {i : Instr} (h : opensHazard i = true) :
    ∃ c p u w rn list, i = .ldm c p u true w rn list ∧ 15 ∉ transferredRegs list := by
  cases i with
  | ldm c p u sf w rn list =>
    simp only [opensHazard, Bool.and_eq_true, Bool.not_eq_true', List.contains_eq_mem, decide_eq_false_iff_not] at h
    obtain ⟨rfl, h15⟩ := h
    exact ⟨c, p, u, w, rn, list, rfl, h15⟩
  | _ => cases h

/-! ## The check -/

/-- Where a register of `rs` meets the hazard, the result is the fault for it. -/
structure ChecksHazard (rs : List Reg) (s : State) (r : Result) : Prop where
  faults : bankHazard s rs = true → r = .fault (.unpredictable .userBankHazard)

/-- User and System share their bank. -/
theorem bank_system (r : Reg) : bank .system r = bank .user r := by revert r; decide

/-- A mode with registers of its own has an SPSR. -/
theorem spsr_of_bankHazard {s : State} {rs : List Reg} (h : bankHazard s rs = true) :
    (s.cpsr.mode.spsr == none) = false := by
  obtain ⟨-, r, -, -, hbank⟩ := (bankHazard_eq_true_iff s rs).1 h
  refine beq_eq_false_iff_ne.2 fun hnone => ?_
  obtain hm | hm := (spsr_eq_none_iff _).1 hnone
  · exact hbank (by rw [hm])
  · exact hbank (by rw [hm, bank_system])

/-- R15 is transferred where its bit is set, and where the list is empty (43_arm_load_store.md R311). -/
theorem pc_mem_transferredRegs (list : BitVec 16) :
    15 ∈ transferredRegs list ↔ list = 0 ∨ list.getLsbD 15 = true := by
  unfold transferredRegs
  split
  · next h => simp [h]
  · next h =>
    simp only [h, false_or, listedRegs, List.mem_map, List.mem_filter, List.mem_range]
    constructor
    · rintro ⟨k, ⟨hk, hbit⟩, e⟩
      have : k = 15 := by
        have := congrArg BitVec.toNat e
        simp only [BitVec.toNat_ofNat] at this
        have h15 : (15 : Reg).toNat = 15 := rfl
        omega
      rwa [this] at hbit
    · exact fun hbit => ⟨15, ⟨by decide, hbit⟩, rfl⟩

/-- The encoding check of an LDM of the User bank refuses its write-back (43_arm_load_store.md R308). -/
theorem writeback_of_userLoad {sf w : Bool} {list : BitVec 16}
    (hsf : (sf && !(transferredRegs list).contains 15) = true)
    (huser : (sf && w && list != 0 && !list.getLsbD 15) = false) : w = false := by
  simp only [Bool.and_eq_true, Bool.not_eq_true', List.contains_eq_mem, decide_eq_false_iff_not,
    pc_mem_transferredRegs, not_or] at hsf
  obtain ⟨rfl, hlist, h15⟩ := hsf
  rw [bne_iff_ne.2 hlist, Bool.eq_false_iff.2 h15] at huser
  simpa using huser

theorem lowReg_toNat_lt (r : LowReg) : (lowReg r).toNat < 8 := by revert r; decide

/-- The registers of LDMIA and STMIA in Thumb state are low registers, or R15 for an empty list
(46_thumb_load_store.md R446). -/
theorem thumbList_low (rb : LowReg) (list : BitVec 8) (r : Reg)
    (h : r ∈ lowReg rb :: transferredRegs (list.setWidth 16)) : r.toNat < 8 ∨ r = 15 := by
  obtain rfl | h := List.mem_cons.1 h
  · exact .inl (lowReg_toNat_lt rb)
  · unfold transferredRegs at h
    split at h
    · exact .inr (List.mem_singleton.1 h)
    · obtain ⟨k, hk, rfl⟩ := List.mem_map.1 h
      have hbit : list.getLsbD k = true := by
        have := (List.mem_filter.1 hk).2
        rw [BitVec.getLsbD_setWidth, Bool.and_eq_true] at this
        exact this.2
      have := BitVec.lt_of_getLsbD hbit
      left
      rw [BitVec.toNat_ofNat]
      omega

namespace ChecksHazard

variable {rs : List Reg} {i : Instr} {s : State} {c : Cond}

theorem faultIf {k : Result} : ChecksHazard rs s (faultIf (bankHazard s rs) .userBankHazard k) :=
  ⟨fun h => by rw [h]; rfl⟩

theorem passed {b : Bool} {u : UnpredictableCase} {k : Result} (hb : b = false) (h : ChecksHazard rs s k) :
    ChecksHazard rs s (Machine.faultIf b u k) := by rwa [hb, faultIf_false]

theorem whenCond {k : Result} (hr : runs i s = true) (hc : condOf i = some c) (h : ChecksHazard rs s k) :
    ChecksHazard rs s (whenCond c s k) := by rwa [whenCond_of_runs hr hc]

/-- An instruction that accesses no register by number. -/
theorem nil {r : Result} : ChecksHazard [] s r := ⟨fun h => by rw [bankHazard_nil] at h; cases h⟩

/-- An instruction that accesses low registers, which no mode banks. -/
theorem low {r : Result} (h : ∀ q ∈ rs, q.toNat < 8 ∨ q = 15) : ChecksHazard rs s r :=
  ⟨fun hb => by rw [bankHazard_low s rs h] at hb; cases hb⟩

/-! ## The operations -/

theorem multiplyLong {signed acc sf : Bool} {rdHi rdLo rs rm : Reg} (hr : runs i s = true) (hc : condOf i = some c)
    (hd : i.defect = longDefect c rdHi rdLo rs rm) :
    ChecksHazard [rdHi, rdLo, rs, rm] s (multiplyLong signed acc c sf rdHi rdLo rs rm s) := by
  have checks := checks_of_runs hr hd
  simp only [firstDefect_cons_eq_none] at checks
  exact .whenCond hr hc <| .passed checks.1 <| .passed checks.2.1 .faultIf

theorem swap {byte : Bool} {rn rd : Reg} {sbz : BitVec 4} {rm : Reg} (hr : runs i s = true) (hc : condOf i = some c)
    (hd : i.defect = swapDefect c rn rd sbz rm) : ChecksHazard [rn, rd, rm] s (swap byte c rn rd sbz rm s) := by
  have checks := checks_of_runs hr hd
  simp only [firstDefect_cons_eq_none] at checks
  obtain ⟨hsbz, hpc, hover, -⟩ := checks
  exact .whenCond hr hc <| .passed hsbz <| .passed hpc <| .passed hover .faultIf

end ChecksHazard

/-- The encoding check of a word or byte transfer is its restriction. -/
theorem wordByteRestricted_of_runs {i : Instr} {s : State} {c : Cond} {byte : Bool} {x : Indexing} {rn rd : Reg}
    {o : Offset} (hr : runs i s = true) (hd : i.defect = wordByteDefect c byte x.writeback rn rd o.regs.head?) :
    wordByteRestricted byte x rn rd o = false := by
  have checks := checks_of_runs hr hd
  simp only [firstDefect_cons_eq_none, Bool.or_eq_false_iff] at checks
  obtain ⟨⟨⟨⟨hoff, hbase⟩, hbyte⟩, hsame⟩, -⟩ := checks
  unfold wordByteRestricted
  rw [hbase, hbyte]
  cases o <;> simp_all [Offset.isPc, Offset.scaledBy, Offset.regs]

theorem halfwordRestricted_of_runs {i : Instr} {s : State} {c : Cond} {x : Indexing} {rn rd : Reg} {sbz : BitVec 4}
    {o : Offset} (hr : runs i s = true) (hd : i.defect = halfwordDefect c x.p x.w rn rd sbz o.regs.head?) :
    (sbz != 0) = false ∧ halfwordRestricted x rn rd o = false := by
  have checks := checks_of_runs hr hd
  simp only [firstDefect_cons_eq_none, Bool.or_eq_false_iff] at checks
  obtain ⟨hsbz, ⟨⟨⟨⟨hpw, hrd⟩, hoff⟩, hbase⟩, hsame⟩, -⟩ := checks
  refine ⟨hsbz, ?_⟩
  unfold halfwordRestricted Indexing.writeback
  rw [hpw, hrd, hbase]
  cases o <;> simp_all [Offset.isPc, Offset.isReg, Offset.regs]

namespace ChecksHazard

variable {i : Instr} {s : State} {c : Cond} {x : Indexing} {rn rd : Reg} {o : Offset}

theorem loadWordByte {byte : Bool} (hr : runs i s = true) (hc : condOf i = some c)
    (hd : i.defect = wordByteDefect c byte x.writeback rn rd o.regs.head?) :
    ChecksHazard (rn :: rd :: o.regs) s (loadWordByte byte c x rn rd o s) :=
  .whenCond hr hc <| .passed (wordByteRestricted_of_runs hr hd) .faultIf

theorem storeWordByte {byte : Bool} (hr : runs i s = true) (hc : condOf i = some c)
    (hd : i.defect = wordByteDefect c byte x.writeback rn rd o.regs.head?) :
    ChecksHazard (rn :: rd :: o.regs) s (storeWordByte byte c x rn rd o s) :=
  .whenCond hr hc <| .passed (wordByteRestricted_of_runs hr hd) .faultIf

theorem loadHalfword {k : LoadKind} {sbz : BitVec 4} (hr : runs i s = true) (hc : condOf i = some c)
    (hd : i.defect = halfwordDefect c x.p x.w rn rd sbz o.regs.head?) :
    ChecksHazard (rn :: rd :: o.regs) s (loadHalfword k c x rn rd sbz o s) :=
  have ⟨hsbz, hres⟩ := halfwordRestricted_of_runs hr hd
  .whenCond hr hc <| .passed hsbz <| .passed hres .faultIf

theorem storeHalfword {sbz : BitVec 4} (hr : runs i s = true) (hc : condOf i = some c)
    (hd : i.defect = halfwordDefect c x.p x.w rn rd sbz o.regs.head?) :
    ChecksHazard (rn :: rd :: o.regs) s (storeHalfword c x rn rd sbz o s) :=
  have ⟨hsbz, hres⟩ := halfwordRestricted_of_runs hr hd
  .whenCond hr hc <| .passed hsbz <| .passed hres .faultIf

/-! ## The families -/

theorem of_dpForm {f : DpForm} (h : dpForm i = some f) (hr : runs i s = true) : ChecksHazard f.regs s (exec i s) := by
  rw [exec_dpForm h hr]
  exact .faultIf

theorem of_mulForm {f : MulForm} (h : mulForm i = some f) (hr : runs i s = true) :
    ChecksHazard f.regs s (exec i s) := by
  cases i with
  | mul c =>
    cases h
    have checks := checks_of_runs (c := c) hr rfl
    simp only [firstDefect_cons_eq_none] at checks
    obtain ⟨hsbz, hpc, hover, -⟩ := checks
    exact .whenCond hr rfl <| .passed hsbz <| .passed (by simpa using hpc) <| .passed hover .faultIf
  | mla c =>
    cases h
    have checks := checks_of_runs (c := c) hr rfl
    simp only [firstDefect_cons_eq_none] at checks
    exact .whenCond hr rfl <| .passed rfl <| .passed checks.1 <| .passed checks.2.1 .faultIf
  | _ => cases h

theorem of_longForm {f : LongForm} (h : longForm i = some f) (hr : runs i s = true) :
    ChecksHazard f.regs s (exec i s) := by
  cases i with
  | umull | umlal | smull | smlal => cases h; exact .multiplyLong hr rfl rfl
  | _ => cases h

theorem of_swapForm {f : SwapForm} (h : swapForm i = some f) (hr : runs i s = true) :
    ChecksHazard [f.rn, f.rd, f.rm] s (exec i s) := by
  cases i with
  | swp | swpb => cases h; exact .swap hr rfl rfl
  | _ => cases h

theorem of_loadForm {f : LoadForm} (h : loadForm i s = some f) (hr : runs i s = true) :
    ChecksHazard f.regs s (exec i s) := by
  cases i with
  | ldrImmPost | ldrtImm | ldrbImmPost | ldrbtImm | ldrImmPre | ldrbImmPre
  | ldrRegPost | ldrtReg | ldrbRegPost | ldrbtReg | ldrRegPre | ldrbRegPre =>
    cases h; exact .loadWordByte hr rfl rfl
  | ldrhReg | ldrhImm | ldrsbReg | ldrsbImm | ldrshReg | ldrshImm => cases h; exact .loadHalfword hr rfl rfl
  | tLdrSp => cases h; exact .faultIf
  | tLdrPc | tLdrReg | tLdrbReg | tLdrhReg | tLdrsbReg | tLdrshReg | tLdrImm | tLdrbImm | tLdrhImm =>
    cases h; exact .nil
  | _ => cases h

theorem of_storeForm {f : StoreForm} (h : storeForm i s = some f) (hr : runs i s = true) :
    ChecksHazard f.regs s (exec i s) := by
  cases i with
  | strImmPost | strtImm | strbImmPost | strbtImm | strImmPre | strbImmPre
  | strRegPost | strtReg | strbRegPost | strbtReg | strRegPre | strbRegPre =>
    cases h; exact .storeWordByte hr rfl rfl
  | strhReg | strhImm => cases h; exact .storeHalfword hr rfl rfl
  | tStrSp => cases h; exact .faultIf
  | tStrReg | tStrbReg | tStrhReg | tStrImm | tStrbImm | tStrhImm => cases h; exact .nil
  | _ => cases h

/-- LDM: the base alone where it loads the User bank, which needs a mode with an SPSR. -/
theorem ldm {p u sf w : Bool} {list : BitVec 16} (hr : runs (.ldm c p u sf w rn list) s = true) :
    ChecksHazard (if sf && !(transferredRegs list).contains 15 then [rn] else rn :: transferredRegs list) s
      (exec (.ldm c p u sf w rn list) s) := by
  refine ⟨fun hb => ?_⟩
  have hspsr : (sf && s.cpsr.mode.spsr == none) = false := by rw [spsr_of_bankHazard hb, Bool.and_false]
  have checks := checks_of_runs (c := c) hr rfl
  simp only [firstDefect_cons_eq_none] at checks
  obtain ⟨hrn, huser, -⟩ := checks
  refine faults (.whenCond hr rfl <| .passed hrn <| .passed hspsr ?_) hb
  split
  · next hsf => exact .passed (writeback_of_userLoad hsf huser) .faultIf
  · exact .faultIf

/-- STM: the base alone where it stores the User bank, which needs a mode with an SPSR. -/
theorem stm {p u sf w : Bool} {list : BitVec 16} (hr : runs (.stm c p u sf w rn list) s = true) :
    ChecksHazard (rn :: if sf then [] else transferredRegs list) s (exec (.stm c p u sf w rn list) s) := by
  refine ⟨fun hb => ?_⟩
  have checks := checks_of_runs (c := c) hr rfl
  simp only [firstDefect_cons_eq_none] at checks
  obtain ⟨hrn, hw, -⟩ := checks
  have huser : (sf && (s.cpsr.mode.spsr == none || w)) = false := by
    rw [spsr_of_bankHazard hb, Bool.false_or, hw]
  exact faults (.whenCond hr rfl <| .passed hrn <| .passed huser .faultIf) hb

theorem of_blockLoadForm {f : BlockForm} (h : blockLoadForm i s = some f) (hr : runs i s = true) :
    ChecksHazard (f.rn :: f.regs) s (exec i s) := by
  cases i with
  | ldm c p u sf w rn list =>
    cases sf with
    | true => cases h
    | false => cases h; exact .ldm hr
  | tPop => cases h; exact .faultIf
  | tLdmia rb list => cases h; exact .low (thumbList_low rb list)
  | _ => cases h

theorem of_blockStoreForm {f : BlockForm} (h : blockStoreForm i s = some f) (hr : runs i s = true) :
    ChecksHazard (f.rn :: f.regs) s (exec i s) := by
  cases i with
  | stm c p u sf w rn list =>
    cases sf with
    | true => cases h
    | false => cases h; exact .stm hr
  | tPush => cases h; exact .faultIf
  | tStmia rb list => cases h; exact .low (thumbList_low rb list)
  | _ => cases h

/-- The one check of a Thumb encoding has passed (30_encoding.md R160). -/
theorem thumbChecked {rs : List Reg} {b : Bool} {u : UnpredictableCase} {k : Result} (hr : runs i s = true)
    (hd : i.defect = firstDefect [(b, u)]) (h : ChecksHazard rs s k) : ChecksHazard rs s (Machine.faultIf b u k) :=
  .passed ((firstDefect_cons_eq_none b u []).1 (hd.symm.trans (defect_of_runs hr))).1 h

theorem of_accessedAlone {rs : List Reg} (h : accessedAlone i = some rs) (hr : runs i s = true) :
    ChecksHazard rs s (exec i s) := by
  cases i with
  | mrs c | msrReg c =>
    cases h
    have checks := checks_of_runs (c := c) hr rfl
    simp only [firstDefect_cons_eq_none] at checks
    exact .whenCond hr rfl <| .passed checks.1 <| .passed checks.2.1 .faultIf
  | bl => cases h; exact .whenCond hr rfl .faultIf
  | bx c =>
    cases h
    have checks := checks_of_runs (c := c) hr rfl
    exact .whenCond hr rfl <| .passed ((firstDefect_cons_eq_none ..).1 checks).1 .faultIf
  | ldm c p u sf w rn list =>
    cases sf with
    | false => cases h
    | true =>
      cases h
      have checked := ldm hr
      by_cases h15 : 15 ∈ transferredRegs list <;> simpa [h15] using checked
  | stm c p u sf w rn list =>
    cases sf with
    | false => cases h
    | true => cases h; exact .stm hr
  | tAddHi | tCmpHi | tMovHi | tBx => cases h; exact .thumbChecked hr rfl .faultIf
  | tAddSp | tSpAdd | tSpSub | tBlFirst | tBlSecond => cases h; exact .faultIf
  | _ => cases h

/-- Every instruction checks the registers it accesses through `x[i]`, family by family. -/
theorem of_accessed {rs : List Reg} (h : accessed i s = some rs) (hr : runs i s = true) :
    ChecksHazard rs s (exec i s) := by
  simp only [accessed, Option.or_eq_some_iff, Option.map_eq_some_iff] at h
  obtain ⟨f, hf, rfl⟩ | ⟨-, ⟨f, hf, rfl⟩ | ⟨-, ⟨f, hf, rfl⟩ | ⟨-, ⟨f, hf, rfl⟩ | ⟨-, ⟨f, hf, rfl⟩ | ⟨-,
    ⟨f, hf, rfl⟩ | ⟨-, ⟨f, hf, rfl⟩ | ⟨-, ⟨f, hf, rfl⟩ | ⟨-, h⟩⟩⟩⟩⟩⟩⟩⟩ := h
  · exact .of_dpForm hf hr
  · exact .of_mulForm hf hr
  · exact .of_longForm hf hr
  · exact .of_swapForm hf hr
  · exact .of_loadForm hf hr
  · exact .of_storeForm hf hr
  · exact .of_blockLoadForm hf hr
  · exact .of_blockStoreForm hf hr
  · exact .of_accessedAlone h hr

end ChecksHazard

/-- Settles O40: it holds; only an LDM of the User bank opens the hazard, and every instruction checks for it the
registers it accesses through `x[i]`. -/
theorem userBankHazard : Obligations.UserBankHazard := by
  refine ⟨fun i s t h ht => ?_, fun i s rs hrs hr hmet => ?_⟩
  · exact opensHazard_eq_true (((exec_endsAll i s).ends t h).hazard ht)
  · exact (ChecksHazard.of_accessed hrs hr).faults ((bankHazard_eq_true_iff s rs).2 hmet)

end Sys2Proof.Machine


/-! The bytes of a load and of a byte store (20_memory.md R84, R86, R88). -/

namespace Sys2Proof.Machine

open Sys2Proof Sys2Proof.Claims

/-! ## Rotations by whole bytes -/

/-- Byte `i` of a word rotated right by `m` bytes lies `m` places further on in the word. -/
theorem extractLsb'_rotateRight_bytes (x : Word) {i m : Nat} (hi : i < 4) (hm : m < 4) :
    (x.rotateRight (8 * m)).extractLsb' (8 * i) 8 = x.extractLsb' (8 * ((i + m) % 4)) 8 := by
  refine BitVec.eq_of_getLsbD_eq fun j hj => ?_
  simp only [BitVec.getLsbD_extractLsb', hj, decide_true, Bool.true_and, BitVec.getLsbD_rotateRight,
    Nat.mod_eq_of_lt (show 8 * m < 32 by omega)]
  by_cases hwrap : i + m < 4
  · rw [show decide (8 * i + j < 32 - 8 * m) = true from decide_eq_true (by omega), cond_true, Nat.mod_eq_of_lt hwrap]
    congr 1
    omega
  · rw [show decide (8 * i + j < 32 - 8 * m) = false from decide_eq_false (by omega), cond_false,
      show decide (8 * i + j < 32) = true from decide_eq_true (by omega), Bool.true_and]
    congr 1
    omega

/-- A halfword rotated right by one byte: its high byte below, its low byte on top. -/
theorem rotateRight_byte_of_half {x : Word} (h : Width.half.cut x = x) :
    x.rotateRight 8 = x.extractLsb' 0 8 ++ 0#16 ++ x.extractLsb' 8 8 := by
  have high : ∀ n, 16 ≤ n → x.getLsbD n = false := fun n hn => by
    rw [← h, Width.cut, BitVec.getLsbD_setWidth, BitVec.getLsbD_of_ge _ _ hn, Bool.and_false]
  refine BitVec.eq_of_getLsbD_eq fun j hj => ?_
  rw [BitVec.getLsbD_rotateRight, BitVec.getLsbD_append, BitVec.getLsbD_append]
  simp only [BitVec.getLsbD_extractLsb', BitVec.getLsbD_zero]
  by_cases hlow : j < 8
  · simp [hlow, show j < 24 by omega]
  · by_cases hmid : j < 24
    · simp [hlow, hmid, show j - 8 < 16 by omega, high (8 + j) (by omega)]
    · simp [hlow, hmid, hj, show ¬ j - 8 < 16 by omega, show j - 24 < 8 by omega, Nat.sub_sub]

/-! ## The parts of an address -/

theorem toNat_mod_two (a : Word) : a.toNat % 2 = (a.getLsbD 0).toNat := by
  rw [← BitVec.testBit_toNat, Nat.testBit_zero]
  rcases Nat.mod_two_eq_zero_or_one a.toNat with h | h <;> rw [h] <;> rfl

theorem extractLsb'_zero_one_toNat (a : Word) : (a.extractLsb' 0 1).toNat = (a.getLsbD 0).toNat := by
  rw [BitVec.extractLsb'_toNat, Nat.shiftRight_zero, ← toNat_mod_two]

theorem alignHalf_of_even {a : Word} (h : a.getLsbD 0 = false) : alignHalf a = a := by
  have parity := toNat_mod_two a
  rw [h, Bool.toNat_false] at parity
  refine BitVec.eq_of_toNat_eq ?_
  rw [alignHalf_toNat]
  omega

theorem alignHalf_of_odd {a : Word} (h : a.getLsbD 0 = true) : alignHalf a = a - 1 := by
  have parity := toNat_mod_two a
  rw [h, Bool.toNat_true] at parity
  refine BitVec.eq_of_toNat_eq ?_
  rw [alignHalf_toNat, BitVec.toNat_sub, show (1 : Word).toNat = 1 from rfl]
  omega

/-! ## Answers of the interface -/

theorem cut_cut (w : Width) (v : Word) : w.cut (w.cut v) = w.cut v := by
  cases w with
  | word => rfl
  | byte | half => rw [Width.cut, Width.cut, BitVec.extractLsb'_setWidth_of_le (by decide), BitVec.extractLsb'_eq_self]

theorem cut_memRead (m : Memory) (w : Width) (a : Word) : w.cut (memRead m w a) = memRead m w a := by
  cases w with
  | word => rfl
  | byte | half => rw [memRead, Width.cut, BitVec.extractLsb'_setWidth_of_le (by decide), BitVec.extractLsb'_eq_self]

/-- The interface answers with a value of the width, zero-extended (20_memory.md R80). -/
theorem cut_busRead (s : State) (w : Width) (a : Word) : w.cut (busRead s w a) = busRead s w a := by
  unfold busRead
  split
  · exact cut_cut w _
  · exact cut_memRead s.mem w a

/-! ## The loads -/

theorem loadValue_word_byte (s : State) (a : Word) {i : Nat} (hi : i < 4) :
    (loadValue s .word a).extractLsb' (8 * i) 8
      = (busRead s .word (alignWord a)).extractLsb' (8 * ((i + a.toNat % 4) % 4)) 8 := by
  have amount : (a.extractLsb' 0 2).toNat = a.toNat % 4 := by rw [BitVec.extractLsb'_toNat, Nat.shiftRight_zero]
  rw [loadValue, amount]
  exact extractLsb'_rotateRight_bytes _ hi (Nat.mod_lt _ (by decide))

theorem loadValue_half_of_even (s : State) {a : Word} (h : a.getLsbD 0 = false) :
    loadValue s .half a = busRead s .half a := by
  rw [loadValue, alignHalf_of_even h, extractLsb'_zero_one_toNat, h]
  simp [BitVec.rotateRight, BitVec.rotateRightAux]

theorem loadValue_half_of_odd (s : State) {a : Word} (h : a.getLsbD 0 = true) :
    loadValue s .half a
      = (busRead s .half (a - 1)).extractLsb' 0 8 ++ 0#16 ++ (busRead s .half (a - 1)).extractLsb' 8 8 := by
  rw [loadValue, alignHalf_of_odd h, extractLsb'_zero_one_toNat, h]
  exact rotateRight_byte_of_half (cut_busRead s .half (a - 1))

/-- Settles O32: it holds; the rotations move whole bytes, and what the interface answers is of the width. -/
theorem loadedBytes : Obligations.LoadedBytes := by
  intro s a
  refine ⟨fun _ => loadValue_word_byte s a, fun heven => ⟨?_, ?_⟩, fun hodd => ⟨loadValue_half_of_odd s hodd, ?_⟩,
    (cut_busRead s .byte a).symm, rfl, fun hord b => ⟨?_, ?_, ?_, fun v => ?_⟩,
    fun hdev => ⟨?_, ?_, ?_, fun v => ?_⟩⟩
  · rw [loadValue_half_of_even s heven]
    exact (cut_busRead s .half a).symm
  · rw [loadValue, heven]
    rfl
  · rw [loadValue, hodd]
    rfl
  iterate 3 exact busRead_ordinary _ hord
  · rw [busWrite_ordinary _ v hord]
    exact byteAt_setByteAt s.mem a b _
  iterate 3 exact busRead_device _ hdev
  · exact busWrite_device .byte v hdev

end Sys2Proof.Machine


/-! What is left of a store, a swap and a block store once its condition and its encoding checks have passed: the
equations per family; and that each faults where it meets the two instruction slots already fetched (20_memory.md
R98). -/

namespace Sys2Proof.Machine

open Sys2Proof Sys2Proof.Claims

/-! ## Single stores -/

/-- The base register as a single transfer leaves it: written where there is a value for it. -/
def baseWritten (base : Option (Reg × Word)) (u : State) : State :=
  match base with
  | some (rn, v) => setReg u rn v
  | none => u

theorem writeBase_eq_baseWritten (u : State) (x : Indexing) (rn : Reg) (v : Word) :
    writeBase u x rn v = baseWritten (if x.writeback then some (rn, v) else none) u := by
  unfold writeBase
  split <;> rfl

/-- A single store with its operands computed: the access, the write-back of the base, the PC advance. -/
def storeOf (f : StoreForm) (s : State) : Result :=
  andThen (store s false f.width f.addr f.value) fun u => .next (advance (baseWritten f.base u))

theorem storeTransfer_eq_storeOf (w : Width) (x : Indexing) (rn rd : Reg) (o : Offset) (s : State) :
    storeTransfer w x rn rd o s = storeOf (armStore s w x rn rd o) s := by
  unfold storeTransfer
  simp only [writeBase_eq_baseWritten]
  rfl

section
variable {i : Instr} {s : State} {c : Cond} {x : Indexing} {rn rd : Reg} {o : Offset}

theorem storeWordByte_of_runs {byte : Bool} (hr : runs i s = true) (hc : condOf i = some c)
    (hd : i.defect = wordByteDefect c byte x.writeback rn rd o.regs.head?) :
    storeWordByte byte c x rn rd o s = faultIf (bankHazard s (rn :: rd :: o.regs)) .userBankHazard
      (storeOf (armStore s (if byte then .byte else .word) x rn rd o) s) := by
  rw [storeWordByte, whenCond_of_runs hr hc, wordByteRestricted_of_runs hr hd, faultIf_false, storeTransfer_eq_storeOf]

theorem storeHalfword_of_runs {sbz : BitVec 4} (hr : runs i s = true) (hc : condOf i = some c)
    (hd : i.defect = halfwordDefect c x.p x.w rn rd sbz o.regs.head?) :
    storeHalfword c x rn rd sbz o s = faultIf (bankHazard s (rn :: rd :: o.regs)) .userBankHazard
      (storeOf (armStore s .half x rn rd o) s) := by
  obtain ⟨hsbz, hres⟩ := halfwordRestricted_of_runs hr hd
  rw [storeHalfword, whenCond_of_runs hr hc, hsbz, hres, faultIf_false, faultIf_false, storeTransfer_eq_storeOf]

end

/-- A single store that runs. -/
theorem exec_storeForm {i : Instr} {f : StoreForm} {s : State} (h : storeForm i s = some f) (hr : runs i s = true) :
    exec i s = faultIf (bankHazard s f.regs) .userBankHazard (storeOf f s) := by
  cases i with
  | strImmPost | strtImm | strbImmPost | strbtImm | strImmPre | strbImmPre
  | strRegPost | strtReg | strbRegPost | strbtReg | strRegPre | strbRegPre =>
    cases h; exact storeWordByte_of_runs hr rfl rfl
  | strhReg | strhImm => cases h; exact storeHalfword_of_runs hr rfl rfl
  | tStrSp => cases h; rfl
  | tStrReg | tStrbReg | tStrhReg | tStrImm | tStrbImm | tStrhImm =>
    cases h
    rw [thumbStoreOf, bankHazard_nil]
    rfl
  | _ => cases h

/-! ## Swaps -/

/-- A swap with its operands read: the load, the store, the loaded value into the destination, the PC advance. -/
def swapOf (f : SwapForm) (s : State) : Result :=
  andThen (store (noteLoad (charge s 1) false f.kind (readReg s f.rn)) false f.width (readReg s f.rn) (readReg s f.rm))
    fun u => .next (advance (setReg u f.rd (loadValue s f.kind (readReg s f.rn))))

theorem swap_of_runs {i : Instr} {s : State} {c : Cond} {byte : Bool} {rn rd : Reg} {sbz : BitVec 4} {rm : Reg}
    (hr : runs i s = true) (hc : condOf i = some c) (hd : i.defect = swapDefect c rn rd sbz rm) :
    swap byte c rn rd sbz rm s
      = faultIf (bankHazard s [rn, rd, rm]) .userBankHazard (swapOf ⟨byte, rn, rd, rm⟩ s) := by
  have checks := checks_of_runs hr hd
  simp only [firstDefect_cons_eq_none] at checks
  obtain ⟨hsbz, hpc, hover, -⟩ := checks
  rw [swap, whenCond_of_runs hr hc, hsbz, hpc, hover]
  rfl

/-- A swap that runs. -/
theorem exec_swapForm {i : Instr} {f : SwapForm} {s : State} (h : swapForm i = some f) (hr : runs i s = true) :
    exec i s = faultIf (bankHazard s [f.rn, f.rd, f.rm]) .userBankHazard (swapOf f s) := by
  cases i with
  | swp | swpb => cases h; exact swap_of_runs hr rfl rfl
  | _ => cases h

/-! ## Block stores -/

/-- The encoding checks of an STM that runs have passed; that of the mode is left. -/
theorem exec_stm_of_runs {c : Cond} {p u sf w : Bool} {rn : Reg} {list : BitVec 16} {s : State}
    (hr : runs (.stm c p u sf w rn list) s = true) (hmode : sf = true → s.cpsr.mode.spsr ≠ none) :
    exec (.stm c p u sf w rn list) s =
      faultIf (bankHazard s (rn :: if sf then [] else transferredRegs list)) .userBankHazard
        (blockStore s w rn (blockStart p u (readReg s rn) list) (blockNewBase u (readReg s rn) list)
          (if sf then storedUserWords s (transferredRegs list)
           else storedWords s 12 w rn (blockNewBase u (readReg s rn) list) (transferredRegs list))) := by
  have checks := checks_of_runs (c := c) hr rfl
  simp only [firstDefect_cons_eq_none] at checks
  obtain ⟨hrn, hw, -⟩ := checks
  have huser : (sf && (s.cpsr.mode.spsr == none || w)) = false := by
    cases sf with
    | false => rfl
    | true => rwa [beq_eq_false_iff_ne.2 (hmode rfl), Bool.false_or]
  change storeMultiple c p u sf w rn list s = _
  rw [storeMultiple, whenCond_of_runs hr rfl, hrn, huser]
  rfl

/-- A block store with S = 0 that runs. -/
theorem exec_blockStoreForm {i : Instr} {f : BlockForm} {s : State} (h : blockStoreForm i s = some f)
    (hr : runs i s = true) :
    exec i s = faultIf (bankHazard s (f.rn :: f.regs)) .userBankHazard
      (blockStore s f.w f.rn f.start f.newBase (storedWords s f.pcOff f.w f.rn f.newBase f.regs)) := by
  cases i with
  | stm c p u sf w rn list =>
    cases sf with
    | true => cases h
    | false => cases h; exact exec_stm_of_runs hr (by simp)
  | tPush => cases h; rfl
  | tStmia rb list =>
    cases h
    simp only [thumbBlock, bankHazard_low s _ (thumbList_low rb list), faultIf_false]
    rfl
  | _ => cases h

/-! ## The slots already fetched -/

theorem storeHitsPipeline_iff (s : State) (w : Width) (a : Word) :
    storeHitsPipeline s w a = true
      ↔ ∃ b, InAccess w a b ∧ (b - (s.pc + instrWidth s)).toNat < 2 * (instrWidth s).toNat := by
  simp only [storeHitsPipeline, List.any_eq_true, List.mem_range, decide_eq_true_eq, InAccess]
  constructor
  · rintro ⟨k, hk, hslot⟩
    exact ⟨_, ⟨k, hk, rfl⟩, hslot⟩
  · rintro ⟨_, ⟨k, hk, rfl⟩, hslot⟩
    exact ⟨k, hk, hslot⟩

/-- A store there faults, whatever was to follow it. -/
theorem andThen_store_of_hits {s : State} {w : Width} {a : Word} (h : storeHitsPipeline s w (alignTo w a) = true)
    (q : Bool) (v : Word) (k : State → Result) :
    andThen (store s q w a v) k = .fault (.pipelineHazard s.pc) := by
  rw [store, if_pos h, andThen_fault]

/-- A block store one of whose words lies there faults. -/
theorem blockStore_of_hits {s : State} {start : Word} {words : List Word} {k : Nat} (hk : k < words.length)
    (h : storeHitsPipeline s .word (alignWord (start + BitVec.ofNat 32 (4 * k))) = true) (w : Bool) (rn : Reg)
    (newBase : Word) : blockStore s w rn start newBase words = .fault (.pipelineHazard s.pc) := by
  rw [blockStore, storeBlock_fault s false start words k hk h, andThen_fault]

/-- Settles O31: it holds; a store that meets the slots ends its instruction, and the read of a swap and the stores
of a block before it leave R15. -/
theorem pipelineStoreFaults : Obligations.PipelineStoreFaults := by
  refine ⟨storeHitsPipeline_iff, fun i f s hf hready hhit => ?_, fun i f s hf hready hhit => ?_,
    fun i f s k hf hready hk hhit => ?_, fun c p u rn list s k hready hmode hk hhit => ?_⟩
  · obtain ⟨hr, hb⟩ := ready_iff.1 hready
    rw [exec_storeForm hf hr, hb, faultIf_false]
    exact andThen_store_of_hits hhit ..
  · obtain ⟨hr, hb⟩ := ready_iff.1 hready
    rw [exec_swapForm hf hr, hb, faultIf_false]
    have loaded := storeHitsPipeline_congr (t := noteLoad (charge s 1) false f.kind (readReg s f.rn)) rfl rfl f.width
      (alignTo f.width (readReg s f.rn))
    exact andThen_store_of_hits (loaded.trans hhit) ..
  · obtain ⟨hr, hb⟩ := ready_iff.1 hready
    rw [exec_blockStoreForm hf hr, hb, faultIf_false]
    exact blockStore_of_hits (by rwa [storedWords, List.length_map]) hhit ..
  · obtain ⟨hr, hb⟩ := ready_iff.1 hready
    rw [exec_stm_of_runs hr fun _ => hmode, if_pos rfl, hb, faultIf_false, if_pos rfl]
    exact blockStore_of_hits (by rwa [storedUserWords, List.length_map]) hhit ..

end Sys2Proof.Machine


/-! The data accesses an instruction presents to the memory interface (20_memory.md R92): each shared operation
presents those of its rule, and an instruction whose condition fails none. -/

namespace Sys2Proof.Machine

open Sys2Proof Sys2Proof.Claims

/-! ## The words of a block store -/

/-- No register is listed twice. -/
theorem transferredRegs_nodup (list : BitVec 16) : (transferredRegs list).Nodup := by
  unfold transferredRegs
  split
  · simp
  · refine List.Nodup.map_on (fun a ha b hb e => ?_) (List.nodup_range.filter _)
    have ha := List.mem_range.1 (List.mem_of_mem_filter ha)
    have hb := List.mem_range.1 (List.mem_of_mem_filter hb)
    have e := congrArg BitVec.toNat e
    simp only [BitVec.toNat_ofNat] at e
    omega

/-- The words of a block store by place: among different registers the head is the one at place 0. -/
theorem storedWords_eq_zipIdx (f : BlockForm) (s : State) (h : f.regs.Nodup) :
    storedWords s f.pcOff f.w f.rn f.newBase f.regs = f.regs.zipIdx.map fun x => f.storedValue s x.2 x.1 := by
  refine List.ext_getElem? fun k => ?_
  simp only [storedWords, List.getElem?_map, List.getElem?_zipIdx, Option.map_map]
  refine Option.map_congr fun r hr => ?_
  obtain ⟨hk, -⟩ := List.getElem?_eq_some_iff.1 hr
  have lowest : f.regs.head? = some r ↔ k = 0 := by
    rw [List.head?_eq_getElem?, ← hr, List.getElem?_inj (Nat.zero_lt_of_lt hk) h, eq_comm]
  simp [BlockForm.storedValue, pcRead, lowest, and_assoc]

theorem storedUserWords_eq_zipIdx (s : State) (regs : List Reg) :
    storedUserWords s regs = regs.zipIdx.map fun x => userStoredValue s x.1 := by
  refine List.ext_getElem? fun k => ?_
  simp only [storedUserWords, List.getElem?_map, List.getElem?_zipIdx, Option.map_map]
  rfl

/-- The writes of a block store, from the list of its words. -/
theorem writes_eq_zipIdx (f : BlockForm) (value : Nat → Reg → Word) :
    f.writes value = (f.regs.zipIdx.map fun x => value x.2 x.1).zipIdx.map fun x =>
      writeRequest .word (alignWord (f.start + BitVec.ofNat 32 (4 * x.2))) x.1 (x.2 != 0) := by
  refine List.ext_getElem? fun k => ?_
  simp only [BlockForm.writes, List.getElem?_map, List.getElem?_zipIdx, Option.map_map, Nat.zero_add]
  rfl

/-! ## A list of accesses presented -/

/-- From `s` to `t` the accesses `xs` were presented, in order: recorded, acted on by the platform, and each read
answered in the state it was made in. -/
structure Presented (s t : State) (xs : List BusAccess) : Prop where
  bus : t.bus = s.bus ++ xs
  devices : t.devices = s.devices
  platform : t.platform = xs.foldl (platformStep s.devices) s.platform
  answers : ∀ k x, xs[k]? = some x → x.write = false →
    x.value = busRead { s with platform := (xs.take k).foldl (platformStep s.devices) s.platform } x.width x.addr

/-- Nothing was presented from `s` to `t`. -/
structure Quiet (s t : State) : Prop where
  bus : t.bus = s.bus := by simp
  devices : t.devices = s.devices := by simp
  platform : t.platform = s.platform := by simp

namespace Quiet

theorem trans {s u t : State} (h : Quiet s u) (k : Quiet u t) : Quiet s t :=
  ⟨k.bus.trans h.bus, k.devices.trans h.devices, k.platform.trans h.platform⟩

theorem advance (s : State) : Quiet s (advance s) := ⟨rfl, rfl, rfl⟩

theorem charge (s : State) (n : Nat) : Quiet s (charge s n) := ⟨rfl, rfl, rfl⟩

theorem writeBase (s : State) (x : Indexing) (rn : Reg) (v : Word) : Quiet s (writeBase s x rn v) := by
  unfold Machine.writeBase
  split <;> exact {}

end Quiet

namespace Presented

theorem nil {s t : State} (h : Quiet s t) : Presented s t [] :=
  ⟨h.bus.trans (List.append_nil _).symm, h.devices, h.platform, fun _ _ hx => by simp at hx⟩

/-- One access, with whatever memory the operation has written by then. -/
theorem access {s : State} {m : Memory} {x : BusAccess} (h : x.write = false → x.value = busRead s x.width x.addr) :
    Presented s (noteAccess { s with mem := m } x) [x] := by
  refine ⟨rfl, rfl, rfl, fun k y hy hread => ?_⟩
  cases k with
  | zero => cases hy; exact h hread
  | succ k => simp at hy

/-- Accesses after accesses: what is read among the later ones is read from the memory at the start. -/
theorem trans {xs ys : List BusAccess} {s u t : State} (h : Presented s u xs) (k : Presented u t ys)
    (hmem : u.mem = s.mem ∨ ∀ y ∈ ys, y.write = true) : Presented s t (xs ++ ys) := by
  refine ⟨by rw [k.bus, h.bus, List.append_assoc], k.devices.trans h.devices,
    by rw [k.platform, h.platform, h.devices, List.foldl_append], fun n x hx hread => ?_⟩
  by_cases hn : n < xs.length
  · rw [List.getElem?_append_left hn] at hx
    rw [List.take_append_of_le_length hn.le]
    exact h.answers n x hx hread
  · have hn : xs.length ≤ n := Nat.le_of_not_lt hn
    rw [List.getElem?_append_right hn] at hx
    have hmem : u.mem = s.mem := hmem.resolve_right fun hw => by
      rw [hw x (List.mem_of_getElem? hx)] at hread
      cases hread
    refine (k.answers _ x hx hread).trans (busRead_congr ?_ ?_ ?_ _ _)
    · exact hmem
    · exact h.devices
    · simp only [h.platform, h.devices, List.take_append, List.take_of_length_le hn, List.foldl_append]

end Presented

/-! ## The requests presented -/

/-- The access of a single load. -/
def loadRequest (k : LoadKind) (a : Word) : BusAccess := readRequest (loadWidth k a) (alignTo (loadWidth k a) a) false

/-- The access of a single store. -/
def storeRequest (w : Width) (a v : Word) : BusAccess := writeRequest w (alignTo w a) v false

/-- Accesses with these requests were presented from `s` to `t`. -/
def Presents (s t : State) (reqs : List BusAccess) : Prop := ∃ xs, Presented s t xs ∧ xs.map request = reqs

theorem request_write (x : BusAccess) : (request x).write = x.write := by
  unfold request
  split <;> rfl

namespace Presents

variable {as bs : List BusAccess} {s u t : State}

theorem nil (h : Quiet s t) : Presents s t [] := ⟨[], .nil h, rfl⟩

theorem trans (h : Presents s u as) (k : Presents u t bs) (hmem : u.mem = s.mem ∨ ∀ b ∈ bs, b.write = true) :
    Presents s t (as ++ bs) := by
  obtain ⟨xs, hxs, rfl⟩ := h
  obtain ⟨ys, hys, rfl⟩ := k
  refine ⟨xs ++ ys, hxs.trans hys (hmem.imp_right fun hw y hy => ?_), List.map_append⟩
  rw [← request_write]
  exact hw _ (List.mem_map_of_mem hy)

theorem thenQuiet (h : Presents s u as) (k : Quiet u t) : Presents s t as := by
  simpa using h.trans (nil k) (.inr (by simp))

theorem noteLoad (s : State) (q : Bool) (k : LoadKind) (a : Word) :
    Presents s (noteLoad s q k a) [readRequest (loadWidth k a) (alignTo (loadWidth k a) a) q] :=
  ⟨[_], .access fun _ => rfl, rfl⟩

/-- A single load with its internal cycle. -/
theorem singleLoad (s : State) (k : LoadKind) (a : Word) :
    Presents s (Machine.noteLoad (charge s 1) false k a) [loadRequest k a] :=
  (nil (.charge s 1)).trans (noteLoad (charge s 1) false k a) (.inl rfl)

end Presents

/-- The address of the next word of a block. -/
theorem block_addr_add_four (a : Word) (n : Nat) :
    a + BitVec.ofNat 32 (4 * n) + 4 = a + BitVec.ofNat 32 (4 * (n + 1)) := by
  rw [add_right_comm, block_addr_succ]

/-- The reads of a block load from its `n`-th register on. -/
theorem Presents.noteBlockLoads (start : Word) (regs : List Reg) (n : Nat) (s : State) :
    Presents s (noteBlockLoads s (n != 0) (start + BitVec.ofNat 32 (4 * n)) regs)
      ((regs.zipIdx n).map fun x => readRequest .word (alignWord (start + BitVec.ofNat 32 (4 * x.2))) (x.2 != 0)) := by
  induction regs generalizing n s with
  | nil => exact nil ⟨rfl, rfl, rfl⟩
  | cons r rest ih =>
    have first := noteLoad s (n != 0) .word (alignWord (start + BitVec.ofNat 32 (4 * n)))
    have later := ih (n + 1) (Machine.noteLoad s (n != 0) .word (alignWord (start + BitVec.ofNat 32 (4 * n))))
    rw [show alignTo (loadWidth .word _) _ = alignWord (alignWord _) from rfl, alignWord_idem] at first
    rw [← block_addr_add_four] at later
    exact first.trans later (.inl rfl)

/-- The reads of a block load, with its internal cycle. -/
theorem Presents.blockReads (f : BlockForm) (s : State) :
    Presents s (Machine.noteBlockLoads (charge s 1) false f.start f.regs) f.reads := by
  have reads := noteBlockLoads f.start f.regs 0 (charge s 1)
  rw [Nat.mul_zero, BitVec.add_zero] at reads
  exact (nil (.charge s 1)).trans reads (.inl rfl)

/-! ## Results -/

/-- Every next state of a result has presented these requests. -/
structure PresentsAll (s : State) (r : Result) (reqs : List BusAccess) : Prop where
  presents : ∀ t, r = .next t → Presents s t reqs

namespace PresentsAll

variable {reqs as bs : List BusAccess} {s u t : State}

theorem next (h : Presents s t reqs) : PresentsAll s (.next t) reqs := ⟨fun _ e => by cases e; exact h⟩

theorem fault {f : Fault} : PresentsAll s (.fault f) reqs := ⟨fun _ e => by cases e⟩

theorem faultIf {b : Bool} {c : UnpredictableCase} {k : Result} (h : PresentsAll s k reqs) :
    PresentsAll s (faultIf b c k) reqs := ⟨fun t e => h.presents t (faultIf_eq_next.1 e).2⟩

/-- Where the condition passes, or is NV and faults. -/
theorem whenCond {c : Cond} {k : Result} (hp : (c == .nv || condHolds c s.cpsr) = true) (h : PresentsAll s k reqs) :
    PresentsAll s (whenCond c s k) reqs := by
  refine ⟨fun t e => ?_⟩
  obtain ⟨-, e⟩ | ⟨hfails, -⟩ := whenCond_eq_next e
  · exact h.presents t e
  · rw [hfails, Bool.or_false, beq_iff_eq] at hp
    rw [hp, whenCond_nv] at e
    cases e

/-- An end that presents nothing. -/
theorem quiet (h : Quiet s t) : PresentsAll s (.next t) [] := next (.nil h)

/-- A result, then what presents nothing more. -/
theorem thenQuiet {r : Result} {k : State → State} (h : PresentsAll s r reqs) (hk : ∀ u, Quiet u (k u)) :
    PresentsAll s (andThen r fun u => .next (k u)) reqs := by
  refine ⟨fun t e => ?_⟩
  obtain ⟨u, hu, e⟩ := andThen_eq_next.1 e
  cases e
  exact (h.presents u hu).thenQuiet (hk u)

/-- Reads, then a result from the state after them. -/
theorem after {r : Result} (h : Presents s u as) (hmem : u.mem = s.mem) (k : PresentsAll u r bs) :
    PresentsAll s r (as ++ bs) := ⟨fun t e => h.trans (k.presents t e) (.inl hmem)⟩

/-- The same after what presents nothing. -/
theorem afterQuiet {r : Result} (h : Quiet s u) (hmem : u.mem = s.mem) (k : PresentsAll u r reqs) :
    PresentsAll s r reqs := after (.nil h) hmem k

/-- Accesses, then a result that presents nothing more. -/
theorem thenNothing {r : Result} (h : Presents s u reqs) (k : PresentsAll u r []) : PresentsAll s r reqs :=
  ⟨fun t e => by simpa using h.trans (k.presents t e) (.inr (by simp))⟩

theorem store {q : Bool} {w : Width} {a v : Word} :
    PresentsAll s (store s q w a v) [writeRequest w (alignTo w a) v q] := by
  unfold Machine.store
  split
  · exact fault
  · exact next ⟨[_], .access (fun h => by cases h), rfl⟩

/-- The writes of a block store from its `n`-th word on. -/
theorem storeBlock {start : Word} {words : List Word} {n : Nat} :
    PresentsAll s (storeBlock s (n != 0) (start + BitVec.ofNat 32 (4 * n)) words)
      ((words.zipIdx n).map fun x =>
        writeRequest .word (alignWord (start + BitVec.ofNat 32 (4 * x.2))) x.1 (x.2 != 0)) := by
  induction words generalizing n s with
  | nil => exact quiet {}
  | cons v rest ih =>
    refine ⟨fun t e => ?_⟩
    obtain ⟨u, hu, e⟩ := andThen_eq_next.1 e
    rw [block_addr_add_four] at e
    refine (store.presents u hu).trans ((ih (n := n + 1)).presents t e) (.inr fun b hb => ?_)
    obtain ⟨x, -, rfl⟩ := List.mem_map.1 hb
    rfl

theorem restoreCpsr : PresentsAll s (restoreCpsr s) [] := by
  refine ⟨fun t e => ?_⟩
  obtain ⟨n, m, -, -, rfl⟩ := restoreCpsr_eq_next e
  exact .nil ⟨rfl, rfl, rfl⟩

theorem raiseUndefined : PresentsAll s (raiseUndefined s) [] := quiet {}

theorem raiseSoftwareInterrupt : PresentsAll s (raiseSoftwareInterrupt s) [] := quiet {}

/-! ## ARM operations -/

theorem dpWrite {op : DpOp} {sf : Bool} {rd : Reg} {out : Word × Psr} : PresentsAll s (dpWrite op sf rd out s) [] := by
  unfold Machine.dpWrite
  split
  · exact quiet {}
  · split
    · split
      · exact restoreCpsr.thenQuiet fun _ => ⟨rfl, rfl, rfl⟩
      · exact quiet {}
    · cases sf <;> exact quiet {}

theorem moveToPsr {r : Bool} {fm : BitVec 4} {v : Word} : PresentsAll s (moveToPsr r fm v s) [] := by
  refine thenQuiet ⟨fun u e => ?_⟩ fun _ => ⟨rfl, rfl, rfl⟩
  split at e
  · obtain ⟨n, -, rfl⟩ := writeSpsr_eq_next e
    exact .nil {}
  · obtain ⟨p, rfl, -⟩ := writeCpsr_eq_next e
    exact .nil ⟨rfl, rfl, rfl⟩

theorem loadTransfer {k : LoadKind} {x : Indexing} {rn rd : Reg} {o : Offset} :
    PresentsAll s (loadTransfer k x rn rd o s) [loadRequest k (transferAddr s x rn o)] := by
  have loaded := (Presents.singleLoad s k (transferAddr s x rn o)).thenQuiet (.writeBase _ x rn (offsetAddr s x rn o))
  unfold Machine.loadTransfer
  dsimp only
  split
  · exact next (loaded.thenQuiet ⟨rfl, rfl, rfl⟩)
  · exact next (loaded.thenQuiet {})

theorem storeTransfer {w : Width} {x : Indexing} {rn rd : Reg} {o : Offset} :
    PresentsAll s (storeTransfer w x rn rd o s) [storeRequest w (transferAddr s x rn o) (operandReg s rd 12)] :=
  store.thenQuiet fun u => (Quiet.writeBase u x rn (offsetAddr s x rn o)).trans (.advance _)

theorem blockStore {f : BlockForm} {value : Nat → Reg → Word} {words : List Word}
    (h : words = f.regs.zipIdx.map fun x => value x.2 x.1) :
    PresentsAll s (blockStore s f.w f.rn f.start f.newBase words) (f.writes value) := by
  have stored := storeBlock (s := s) (start := f.start) (words := words) (n := 0)
  rw [Nat.mul_zero, BitVec.add_zero, h, ← writes_eq_zipIdx, ← h] at stored
  refine stored.thenQuiet fun u => ?_
  split <;> exact {}

theorem blockLoad {f : BlockForm} {restore : Bool} :
    PresentsAll s (blockLoad restore s f.w f.rn f.start f.newBase f.regs) f.reads := by
  have loaded : Presents s (blockLoaded s f.w f.rn f.start f.newBase f.regs) f.reads := by
    refine (Presents.blockReads f s).thenQuiet ?_
    unfold blockLoaded
    dsimp only
    split <;> exact {}
  unfold Machine.blockLoad
  dsimp only
  split
  · exact next (loaded.thenQuiet ⟨rfl, rfl, rfl⟩)
  · split
    · exact (thenNothing loaded restoreCpsr).thenQuiet fun _ => ⟨rfl, rfl, rfl⟩
    · exact next (loaded.thenQuiet ⟨rfl, rfl, rfl⟩)

theorem blockLoadUser {f : BlockForm} : PresentsAll s (blockLoadUser s f.start f.regs) f.reads :=
  next ((Presents.blockReads f s).thenQuiet {})

section
variable {c : Cond} (hp : (c == .nv || condHolds c s.cpsr) = true)
include hp

theorem dataProcessing {op : DpOp} {sf : Bool} {rn rd : Reg} {o : Operand2} :
    PresentsAll s (dataProcessing op c sf rn rd o s) [] :=
  whenCond hp <| faultIf <| faultIf <| faultIf <| afterQuiet (.charge ..) rfl dpWrite

theorem moveFromPsr {r : Bool} {sbo : BitVec 4} {rd : Reg} {sbzHi sbzLo : BitVec 4} :
    PresentsAll s (moveFromPsr c r sbo rd sbzHi sbzLo s) [] := by
  refine whenCond hp <| faultIf <| faultIf <| faultIf ?_
  split
  · split
    · exact fault
    · exact quiet {}
  · exact quiet {}

theorem multiply {acc sf : Bool} {rd rn rs rm : Reg} : PresentsAll s (multiply acc c sf rd rn rs rm s) [] := by
  refine whenCond hp <| faultIf <| faultIf <| faultIf <| faultIf ?_
  cases sf <;> exact quiet {}

theorem multiplyLong {signed acc sf : Bool} {rdHi rdLo rs rm : Reg} :
    PresentsAll s (multiplyLong signed acc c sf rdHi rdLo rs rm s) [] := by
  refine whenCond hp <| faultIf <| faultIf <| faultIf ?_
  cases sf <;> exact quiet {}

theorem branchExchange {sbo : BitVec 12} {rm : Reg} : PresentsAll s (branchExchange c sbo rm s) [] :=
  whenCond hp <| faultIf <| faultIf <| quiet ⟨rfl, rfl, rfl⟩

theorem swap {f : SwapForm} {sbz : BitVec 4} :
    PresentsAll s (swap f.byte c f.rn f.rd sbz f.rm s)
      [loadRequest f.kind (readReg s f.rn), storeRequest f.width (readReg s f.rn) (readReg s f.rm)] :=
  whenCond hp <| faultIf <| faultIf <| faultIf <| faultIf <|
    after (.singleLoad ..) rfl (store.thenQuiet fun _ => {})

theorem loadWordByte {byte : Bool} {x : Indexing} {rn rd : Reg} {o : Offset} :
    PresentsAll s (loadWordByte byte c x rn rd o s)
      [loadRequest (if byte then .byte else .word) (transferAddr s x rn o)] :=
  whenCond hp <| faultIf <| faultIf loadTransfer

theorem storeWordByte {byte : Bool} {x : Indexing} {rn rd : Reg} {o : Offset} :
    PresentsAll s (storeWordByte byte c x rn rd o s)
      [storeRequest (if byte then .byte else .word) (transferAddr s x rn o) (operandReg s rd 12)] :=
  whenCond hp <| faultIf <| faultIf storeTransfer

theorem loadHalfword {k : LoadKind} {x : Indexing} {rn rd : Reg} {sbz : BitVec 4} {o : Offset} :
    PresentsAll s (loadHalfword k c x rn rd sbz o s) [loadRequest k (transferAddr s x rn o)] :=
  whenCond hp <| faultIf <| faultIf <| faultIf loadTransfer

theorem storeHalfword {x : Indexing} {rn rd : Reg} {sbz : BitVec 4} {o : Offset} :
    PresentsAll s (storeHalfword c x rn rd sbz o s)
      [storeRequest .half (transferAddr s x rn o) (operandReg s rd 12)] :=
  whenCond hp <| faultIf <| faultIf <| faultIf storeTransfer

theorem loadMultiple {p u sf w : Bool} {rn : Reg} {list : BitVec 16} :
    PresentsAll s (loadMultiple c p u sf w rn list s) (armBlock s p u w rn list).reads := by
  refine whenCond hp <| faultIf <| faultIf ?_
  split
  · exact faultIf <| faultIf <| blockLoadUser (f := armBlock s p u w rn list)
  · exact faultIf <| blockLoad (f := armBlock s p u w rn list)

theorem storeMultiple {p u sf w : Bool} {rn : Reg} {list : BitVec 16} :
    PresentsAll s (storeMultiple c p u sf w rn list s)
      ((armBlock s p u w rn list).writes
        (if sf then fun _ => userStoredValue s else (armBlock s p u w rn list).storedValue s)) := by
  refine whenCond hp <| faultIf <| faultIf <| faultIf <| blockStore (f := armBlock s p u w rn list) ?_
  cases sf with
  | false => exact storedWords_eq_zipIdx (armBlock s p u w rn list) s (transferredRegs_nodup list)
  | true => exact storedUserWords_eq_zipIdx s (transferredRegs list)

end

/-! ## Thumb operations -/

theorem thumbResult {rd : LowReg} {r : Word} {p : Psr} : PresentsAll s (thumbResult rd r p s) [] := quiet {}

theorem writeHigh {rd : Reg} {v : Word} : PresentsAll s (writeHigh rd v s) [] := by
  unfold Machine.writeHigh
  split <;> exact quiet {}

theorem thumbBranchCond {c : Cond} {off : BitVec 8} : PresentsAll s (thumbBranchCond c off s) [] := by
  unfold Machine.thumbBranchCond
  split <;> exact quiet {}

theorem thumbLoad {k : LoadKind} {a : Word} {rd : LowReg} : PresentsAll s (thumbLoad k a rd s) [loadRequest k a] :=
  next ((Presents.singleLoad s k a).thenQuiet {})

theorem thumbStore {w : Width} {a : Word} {rd : LowReg} :
    PresentsAll s (thumbStore w a rd s) [storeRequest w a (readReg s (lowReg rd))] := store.thenQuiet .advance

/-- A block store of Thumb state. -/
theorem thumbBlockStore {p u : Bool} {rn : Reg} {list : BitVec 16} :
    PresentsAll s
      (Machine.blockStore s true rn (blockStart p u (readReg s rn) list) (blockNewBase u (readReg s rn) list)
        (storedWords s 6 true rn (blockNewBase u (readReg s rn) list) (transferredRegs list)))
      ((thumbBlock s p u rn list).writes ((thumbBlock s p u rn list).storedValue s)) :=
  blockStore (f := thumbBlock s p u rn list)
    (storedWords_eq_zipIdx (thumbBlock s p u rn list) s (transferredRegs_nodup list))

end PresentsAll

/-! ## Every instruction -/

/-- An instruction whose condition passes, or that has none, presents the accesses of its rule wherever it answers a
next state: each constructor of `Instr` under the operation its meaning is. -/
theorem exec_presentsAll {i : Instr} {s : State} (hp : passes i s = true) :
    PresentsAll s (exec i s) (dataAccesses i s) := by
  cases i with
  | andImmShift | eorImmShift | subImmShift | rsbImmShift | addImmShift | adcImmShift | sbcImmShift | rscImmShift
  | tstImmShift | teqImmShift | cmpImmShift | cmnImmShift | orrImmShift | movImmShift | bicImmShift | mvnImmShift
  | andRegShift | eorRegShift | subRegShift | rsbRegShift | addRegShift | adcRegShift | sbcRegShift | rscRegShift
  | tstRegShift | teqRegShift | cmpRegShift | cmnRegShift | orrRegShift | movRegShift | bicRegShift | mvnRegShift
  | andImm | eorImm | subImm | rsbImm | addImm | adcImm | sbcImm | rscImm
  | tstImm | teqImm | cmpImm | cmnImm | orrImm | movImm | bicImm | mvnImm => exact .dataProcessing hp
  | mrs => exact .moveFromPsr hp
  | msrReg => exact .whenCond hp <| .faultIf <| .faultIf <| .faultIf .moveToPsr
  | msrImm => exact .whenCond hp <| .faultIf .moveToPsr
  | mul | mla => exact .multiply hp
  | umull | umlal | smull | smlal => exact .multiplyLong hp
  | swp _ rn rd _ rm => exact .swap (f := ⟨false, rn, rd, rm⟩) hp
  | swpb _ rn rd _ rm => exact .swap (f := ⟨true, rn, rd, rm⟩) hp
  | ldrImmPost | ldrtImm | ldrbImmPost | ldrbtImm | ldrImmPre | ldrbImmPre
  | ldrRegPost | ldrtReg | ldrbRegPost | ldrbtReg | ldrRegPre | ldrbRegPre => exact .loadWordByte hp
  | strImmPost | strtImm | strbImmPost | strbtImm | strImmPre | strbImmPre
  | strRegPost | strtReg | strbRegPost | strbtReg | strRegPre | strbRegPre => exact .storeWordByte hp
  | ldrhReg | ldrhImm | ldrsbReg | ldrsbImm | ldrshReg | ldrshImm => exact .loadHalfword hp
  | strhReg | strhImm => exact .storeHalfword hp
  | ldm _ _ _ sf => cases sf <;> exact .loadMultiple hp
  | stm _ _ _ sf =>
    cases sf with
    | false => exact .storeMultiple (sf := false) hp
    | true => exact .storeMultiple (sf := true) hp
  | b => exact .whenCond hp <| .quiet {}
  | bl => exact .whenCond hp <| .faultIf <| .quiet {}
  | bx => exact .branchExchange hp
  | swi => exact .whenCond hp .raiseSoftwareInterrupt
  | undefMisc01000020 | undefMisc01000040 | undefMisc01000080 | undefMisc01000010 | undefMisc01200030
  | undefMisc01200050 | undefMisc01400010 | undefMulSwap00400090 | undefMulSwap01100090 | undefMulSwap01200090
  | undefMulSwap01800090 | undefHalfStore | undefTstImm | undefArch
  | stc | ldc | cdp | mcr | mrc => exact .whenCond hp .raiseUndefined
  | tLslImm | tLsrImm | tAsrImm | tMovImm | tAnd | tEor | tOrr | tBic | tMvn
  | tAddReg | tSubReg | tAddImm3 | tSubImm3 | tAddImm8 | tSubImm8 | tAdc | tSbc | tNeg => exact .thumbResult
  | tLslReg | tLsrReg | tAsrReg | tRorReg => exact .afterQuiet (.charge s 1) rfl .thumbResult
  | tTst | tCmpImm | tCmpReg | tCmn => exact .quiet ⟨rfl, rfl, rfl⟩
  | tMul => exact .faultIf <| .quiet {}
  | tAddHi | tMovHi => exact .faultIf <| .faultIf .writeHigh
  | tCmpHi => exact .faultIf <| .faultIf <| .quiet ⟨rfl, rfl, rfl⟩
  | tBx => exact .faultIf <| .faultIf <| .quiet ⟨rfl, rfl, rfl⟩
  | tLdrPc | tLdrsbReg | tLdrReg | tLdrhReg | tLdrbReg | tLdrshReg | tLdrImm | tLdrbImm | tLdrhImm =>
    exact .thumbLoad
  | tStrReg | tStrhReg | tStrbReg | tStrImm | tStrbImm | tStrhImm => exact .thumbStore
  | tLdrSp => exact .faultIf .thumbLoad
  | tStrSp => exact .faultIf .thumbStore
  | tAddPc => exact .quiet {}
  | tAddSp | tSpAdd | tSpSub => exact .faultIf <| .quiet {}
  | tPush => exact .faultIf <| .thumbBlockStore (p := true) (u := false)
  | tPop r list => exact .faultIf <| .blockLoad (f := thumbBlock s false true 13 (popList r list))
  | tStmia => exact .thumbBlockStore (p := false) (u := true)
  | tLdmia rb list => exact .blockLoad (f := thumbBlock s false true (lowReg rb) (list.setWidth 16))
  | tBcondD0 | tBcondD8 | tBcondDC => exact .thumbBranchCond
  | tB => exact .quiet ⟨rfl, rfl, rfl⟩
  | tBlFirst | tBlSecond => exact .faultIf <| .quiet {}
  | tSwi => exact .raiseSoftwareInterrupt
  | tUndefB1 | tUndefB8 | tUndefB2 | tUndefDE | tUndefE8 => exact .raiseUndefined

/-- An instruction with a condition field begins by checking it (30_encoding.md R124). -/
theorem exec_eq_whenCond {i : Instr} {c : Cond} (h : condOf i = some c) (s : State) :
    ∃ k, exec i s = whenCond c s k := by
  cases i with
  | tLslImm | tLsrImm | tAsrImm | tAddReg | tSubReg | tAddImm3 | tSubImm3 | tMovImm | tCmpImm | tAddImm8 | tSubImm8
  | tAnd | tEor | tLslReg | tLsrReg | tAsrReg | tAdc | tSbc | tRorReg | tTst | tNeg | tCmpReg | tCmn | tOrr | tMul
  | tBic | tMvn | tAddHi | tCmpHi | tMovHi | tBx | tLdrPc | tStrReg | tStrhReg | tStrbReg | tLdrsbReg | tLdrReg
  | tLdrhReg | tLdrbReg | tLdrshReg | tStrImm | tLdrImm | tStrbImm | tLdrbImm | tStrhImm | tLdrhImm | tStrSp | tLdrSp
  | tAddPc | tAddSp | tSpAdd | tSpSub | tUndefB1 | tPush | tUndefB8 | tPop | tUndefB2 | tStmia | tLdmia | tBcondD0
  | tBcondD8 | tBcondDC | tUndefDE | tSwi | tB | tUndefE8 | tBlFirst | tBlSecond => cases h
  | _ => cases h; exact ⟨_, rfl⟩

/-- An instruction whose condition fails only advances (30_encoding.md R124). -/
theorem exec_of_not_passes {i : Instr} {s : State} (h : passes i s = false) : exec i s = .next (advance s) := by
  unfold passes at h
  split at h
  · next c hc =>
    obtain ⟨k, e⟩ := exec_eq_whenCond hc s
    rw [Bool.or_eq_false_iff, beq_eq_false_iff_ne] at h
    rw [e, whenCond_fails k h.1 h.2]
  · cases h

theorem passes_of_runs {i : Instr} {s : State} (hr : runs i s = true) : passes i s = true := by
  unfold passes
  split
  · next c hc => rw [(cond_of_runs hr hc).2, Bool.or_true]
  · rfl

/-- Settles O60: it holds; a condition that fails presents nothing, and one that passes leaves the operation, which
presents the accesses of its rule. -/
theorem accessesPresented : Obligations.AccessesPresented := by
  intro i s t h
  cases hp : passes i s with
  | false =>
    rw [exec_of_not_passes hp] at h
    cases h
    have nothing := Presented.nil (Quiet.advance s)
    refine ⟨[], nothing.bus, nothing.platform, fun hr => ?_, fun _ => rfl, nothing.answers⟩
    rw [passes_of_runs hr] at hp
    cases hp
  | true =>
    obtain ⟨xs, hxs, hreq⟩ := (exec_presentsAll hp).presents t h
    exact ⟨xs, hxs.bus, hxs.platform, fun _ => hreq, fun hf => (by cases hf), hxs.answers⟩

end Sys2Proof.Machine

/-! # The encoding: decoding and encoding are inverse, and what the decoded words answer (30_encoding.md) -/

namespace Sys2Proof

/-! ## Decoding an encoded instruction -/

/-- Each family through its decoder: the row's fixed bits choose the branch, and the fields are joined again. -/
theorem decode_encode (i : Instr) : decode (encode i) = i := by
  cases i with
  | andImmShift | eorImmShift | subImmShift | rsbImmShift | addImmShift | adcImmShift | sbcImmShift | rscImmShift
  | tstImmShift | teqImmShift | cmpImmShift | cmnImmShift | orrImmShift | movImmShift | bicImmShift | mvnImmShift =>
    simp [encode, decode, decodeArmParts, decodeArm000, decodeDpImmShift, ArmParts.bits11_7]
  | andRegShift | eorRegShift | subRegShift | rsbRegShift | addRegShift | adcRegShift | sbcRegShift | rscRegShift
  | tstRegShift | teqRegShift | cmpRegShift | cmnRegShift | orrRegShift | movRegShift | bicRegShift | mvnRegShift =>
    simp [encode, decode, decodeArmParts, decodeArm000, decodeDpRegShift]
  | andImm | eorImm | subImm | rsbImm | addImm | adcImm | sbcImm | rscImm
  | tstImm | teqImm | cmpImm | cmnImm | orrImm | movImm | bicImm | mvnImm | msrImm | undefTstImm =>
    simp [encode, decode, decodeArmParts, decodeArm001, decodeDpImm, ArmParts.bits7_0]
  | mrs | msrReg | bx | undefMisc01000020 | undefMisc01000040 | undefMisc01000080 | undefMisc01000010
  | undefMisc01200030 | undefMisc01200050 | undefMisc01400010 =>
    simp [encode, decode, decodeArmParts, decodeArm000, decodeMisc, ArmParts.bits19_8]
  | mul | mla | umull | umlal | smull | smlal | swp | swpb | undefMulSwap00400090 | undefMulSwap01100090
  | undefMulSwap01200090 | undefMulSwap01800090 =>
    simp [encode, decode, decodeArmParts, decodeArm000, decodeMulSwap]
  | strhReg | ldrhReg | strhImm | ldrhImm | undefHalfStore | ldrsbReg | ldrshReg | ldrsbImm | ldrshImm =>
    simp [encode, decode, decodeArmParts, decodeArm000, decodeHalfword]
  | strImmPost | ldrImmPost | strtImm | ldrtImm | strbImmPost | ldrbImmPost | strbtImm | ldrbtImm
  | strImmPre | ldrImmPre | strbImmPre | ldrbImmPre =>
    simp [encode, decode, decodeArmParts, decodeTransferImm, ArmParts.bits11_0]
  | strRegPost | ldrRegPost | strtReg | ldrtReg | strbRegPost | ldrbRegPost | strbtReg | ldrbtReg
  | strRegPre | ldrRegPre | strbRegPre | ldrbRegPre =>
    simp [encode, decode, decodeArmParts, decodeTransferReg, ArmParts.bits11_7]
  | undefArch => simp [encode, decode, decodeArmParts]
  | stm | ldm => simp [encode, decode, decodeArmParts, ArmParts.bits15_0]
  | b | bl => simp [encode, decode, decodeArmParts, ArmParts.bits23_0]
  | stc | ldc => simp [encode, decode, decodeArmParts, ArmParts.bits7_0]
  | cdp | mcr | mrc | swi =>
    simp [encode, decode, decodeArmParts, decodeArm111, ArmParts.bits23_20, ArmParts.bits23_21, ArmParts.bits23_0,
      ArmParts.bits7_5]
  | tLslImm | tLsrImm | tAsrImm | tAddReg | tSubReg | tAddImm3 | tSubImm3 | tMovImm | tCmpImm | tAddImm8 | tSubImm8 =>
    simp [encode, decode, decodeThumbParts, decodeThumb00, ThumbParts.bits10_6, ThumbParts.bits8_6,
      ThumbParts.bits10_8, ThumbParts.bits7_0]
  | tAnd | tEor | tLslReg | tLsrReg | tAsrReg | tAdc | tSbc | tRorReg | tTst | tNeg | tCmpReg | tCmn | tOrr | tMul
  | tBic | tMvn => simp [encode, decode, decodeThumbParts, decodeThumb40, decodeThumbAlu]
  | tAddHi | tCmpHi | tMovHi | tBx | tLdrPc =>
    simp [encode, decode, decodeThumbParts, decodeThumb40, ThumbParts.bits10_8, ThumbParts.bits7_0]
  | tStrReg | tStrhReg | tStrbReg | tLdrsbReg | tLdrReg | tLdrhReg | tLdrbReg | tLdrshReg =>
    simp [encode, decode, decodeThumbParts, decodeThumb50, ThumbParts.bits8_6]
  | tStrImm | tLdrImm | tStrbImm | tLdrbImm | tStrhImm | tLdrhImm =>
    simp [encode, decode, decodeThumbParts, ThumbParts.bits10_6]
  | tStrSp | tLdrSp | tAddPc | tAddSp | tStmia | tLdmia =>
    simp [encode, decode, decodeThumbParts, ThumbParts.bits10_8, ThumbParts.bits7_0]
  | tSpAdd | tSpSub | tUndefB1 | tPush | tUndefB8 | tPop | tUndefB2 =>
    simp [encode, decode, decodeThumbParts, decodeThumbB0, ThumbParts.bits6_0, ThumbParts.bits7_0, ThumbParts.bits8_0]
  | tBcondD0 | tBcondD8 | tBcondDC | tUndefDE | tSwi =>
    simp [encode, decode, decodeThumbParts, decodeThumbD0, ThumbParts.bits10_8, ThumbParts.bits9_8, ThumbParts.bits8_8,
      ThumbParts.bits7_0]
  | tB | tUndefE8 | tBlFirst | tBlSecond => simp [encode, decode, decodeThumbParts, ThumbParts.bits10_0]

/-- Settles O1: it holds, family by family. -/
theorem decodeEncode : Obligations.DecodeEncode := decode_encode

/-! ## Encoding what an ARM word decodes to -/

/-! One lemma per decoder: under the bits that lead to it, each of its branches gives an instruction whose row fixes
the same bits, so that the encoder's parts are the word's. `hs`: the S = 0 words of the tests do not come to the
data-processing decoders. -/

section ArmFamilies

variable {p : ArmParts}

/-- Two encoded words are equal when their parts are. -/
theorem arm_toWord_congr {q : ArmParts} (h : q = p) : Code.arm q.toWord = .arm p.toWord := by rw [h]

theorem encode_decodeDpImmShift (h27 : p.b27 = false) (h26 : p.b26 = false) (h25 : p.b25 = false) (h4 : p.b4 = false)
    (hs : p.b24 = true → p.b23 = false → p.b20 = true) : encode (decodeDpImmShift p) = .arm p.toWord := by
  unfold decodeDpImmShift
  split <;> exact arm_toWord_congr (by cases p; simp_all)

theorem encode_decodeDpRegShift (h27 : p.b27 = false) (h26 : p.b26 = false) (h25 : p.b25 = false) (h7 : p.b7 = false)
    (h4 : p.b4 = true) (hs : p.b24 = true → p.b23 = false → p.b20 = true) :
    encode (decodeDpRegShift p) = .arm p.toWord := by
  unfold decodeDpRegShift
  split <;> exact arm_toWord_congr (by cases p; simp_all)

theorem encode_decodeDpImm (h27 : p.b27 = false) (h26 : p.b26 = false) (h25 : p.b25 = true)
    (hs : p.b24 = true → p.b23 = false → p.b20 = true) : encode (decodeDpImm p) = .arm p.toWord := by
  unfold decodeDpImm
  split <;> exact arm_toWord_congr (by cases p; simp_all)

theorem encode_decodeMulSwap (h27 : p.b27 = false) (h26 : p.b26 = false) (h25 : p.b25 = false) (h7 : p.b7 = true)
    (h6 : p.b6 = false) (h5 : p.b5 = false) (h4 : p.b4 = true) : encode (decodeMulSwap p) = .arm p.toWord := by
  unfold decodeMulSwap
  split <;> exact arm_toWord_congr (by cases p; simp_all)

theorem encode_decodeHalfword (h27 : p.b27 = false) (h26 : p.b26 = false) (h25 : p.b25 = false) (h7 : p.b7 = true)
    (h4 : p.b4 = true) (h65 : p.b6 = false → p.b5 = true) : encode (decodeHalfword p) = .arm p.toWord := by
  unfold decodeHalfword
  split <;> exact arm_toWord_congr (by cases p; simp_all)

theorem encode_decodeMisc (h27 : p.b27 = false) (h26 : p.b26 = false) (h25 : p.b25 = false) (h24 : p.b24 = true)
    (h23 : p.b23 = false) (h20 : p.b20 = false) (h74 : p.b4 = true → p.b7 = false) :
    encode (decodeMisc p) = .arm p.toWord := by
  unfold decodeMisc
  split <;> exact arm_toWord_congr (by cases p; simp_all)

theorem encode_decodeTransferImm (h27 : p.b27 = false) (h26 : p.b26 = true) (h25 : p.b25 = false) :
    encode (decodeTransferImm p) = .arm p.toWord := by
  unfold decodeTransferImm
  split <;> exact arm_toWord_congr (by cases p; simp_all)

theorem encode_decodeTransferReg (h27 : p.b27 = false) (h26 : p.b26 = true) (h25 : p.b25 = true) (h4 : p.b4 = false) :
    encode (decodeTransferReg p) = .arm p.toWord := by
  unfold decodeTransferReg
  split <;> exact arm_toWord_congr (by cases p; simp_all)

theorem encode_decodeArm000 (h27 : p.b27 = false) (h26 : p.b26 = false) (h25 : p.b25 = false) :
    encode (decodeArm000 p) = .arm p.toWord := by
  unfold decodeArm000
  split
  · next h7 h4 h6 h5 => exact encode_decodeMulSwap h27 h26 h25 h7 h6 h5 h4
  · next h7 h4 hsh => exact encode_decodeHalfword h27 h26 h25 h7 h4 (by simpa using hsh)
  · next hboth hmul =>
    have h74 : p.b4 = true → p.b7 = false := fun h4 => Bool.eq_false_iff.2 (hboth · h4)
    split
    · next h24 h23 h20 => exact encode_decodeMisc h27 h26 h25 h24 h23 h20 h74
    · next h4 hmisc => exact encode_decodeDpImmShift h27 h26 h25 h4 (by simpa using hmisc)
    · next h4 hmisc => exact encode_decodeDpRegShift h27 h26 h25 (h74 h4) h4 (by simpa using hmisc)

theorem encode_decodeArm001 (h27 : p.b27 = false) (h26 : p.b26 = false) (h25 : p.b25 = true) :
    encode (decodeArm001 p) = .arm p.toWord := by
  unfold decodeArm001
  split
  · exact arm_toWord_congr (by cases p; simp_all)
  · exact arm_toWord_congr (by cases p; simp_all)
  · next hmsr hundef =>
    refine encode_decodeDpImm h27 h26 h25 fun h24 h23 => Bool.eq_true_of_not_eq_false fun h20 => ?_
    cases h21 : p.b21 with
    | true => exact hmsr h24 h23 h20 h21
    | false => exact hundef h24 h23 h20 h21

theorem encode_decodeArm111 (h27 : p.b27 = true) (h26 : p.b26 = true) (h25 : p.b25 = true) :
    encode (decodeArm111 p) = .arm p.toWord := by
  unfold decodeArm111
  split <;> exact arm_toWord_congr (by cases p; simp_all)

/-- Every word of parts is the encoding of what it decodes to: the families of bits 27:25. -/
theorem encode_decodeArmParts (p : ArmParts) : encode (decodeArmParts p) = .arm p.toWord := by
  unfold decodeArmParts
  split
  · next h27 h26 h25 => exact encode_decodeArm000 h27 h26 h25
  · next h27 h26 h25 => exact encode_decodeArm001 h27 h26 h25
  · next h27 h26 h25 => exact encode_decodeTransferImm h27 h26 h25
  · next h27 h26 h25 =>
    split
    · exact arm_toWord_congr (by cases p; simp_all)
    · next h4 => exact encode_decodeTransferReg h27 h26 h25 h4
  · split <;> exact arm_toWord_congr (by cases p; simp_all)
  · split <;> exact arm_toWord_congr (by cases p; simp_all)
  · split <;> exact arm_toWord_congr (by cases p; simp_all)
  · next h27 h26 h25 => exact encode_decodeArm111 h27 h26 h25

end ArmFamilies

/-! ## Encoding what a Thumb halfword decodes to -/

section ThumbFamilies

variable {p : ThumbParts}

/-- Two encoded halfwords are equal when their parts are. -/
theorem thumb_toHalf_congr {q : ThumbParts} (h : q = p) : Code.thumb q.toHalf = .thumb p.toHalf := by rw [h]

theorem encode_decodeThumbAlu (h15 : p.b15 = false) (h14 : p.b14 = true) (h13 : p.b13 = false) (h12 : p.b12 = false)
    (h11 : p.b11 = false) (h10 : p.b10 = false) : encode (decodeThumbAlu p) = .thumb p.toHalf := by
  unfold decodeThumbAlu
  split <;> exact thumb_toHalf_congr (by cases p; simp_all)

theorem encode_decodeThumb00 (h15 : p.b15 = false) (h14 : p.b14 = false) :
    encode (decodeThumb00 p) = .thumb p.toHalf := by
  unfold decodeThumb00
  split <;> exact thumb_toHalf_congr (by cases p; simp_all)

theorem encode_decodeThumb40 (h15 : p.b15 = false) (h14 : p.b14 = true) (h13 : p.b13 = false) (h12 : p.b12 = false) :
    encode (decodeThumb40 p) = .thumb p.toHalf := by
  unfold decodeThumb40
  split
  · next h11 h10 => exact encode_decodeThumbAlu h15 h14 h13 h12 h11 h10
  all_goals exact thumb_toHalf_congr (by cases p; simp_all)

theorem encode_decodeThumb50 (h15 : p.b15 = false) (h14 : p.b14 = true) (h13 : p.b13 = false) (h12 : p.b12 = true) :
    encode (decodeThumb50 p) = .thumb p.toHalf := by
  unfold decodeThumb50
  split <;> exact thumb_toHalf_congr (by cases p; simp_all)

theorem encode_decodeThumbB0 (h15 : p.b15 = true) (h14 : p.b14 = false) (h13 : p.b13 = true) (h12 : p.b12 = true) :
    encode (decodeThumbB0 p) = .thumb p.toHalf := by
  unfold decodeThumbB0
  split <;> exact thumb_toHalf_congr (by cases p; simp_all)

theorem encode_decodeThumbD0 (h15 : p.b15 = true) (h14 : p.b14 = true) (h13 : p.b13 = false) (h12 : p.b12 = true) :
    encode (decodeThumbD0 p) = .thumb p.toHalf := by
  unfold decodeThumbD0
  split <;> exact thumb_toHalf_congr (by cases p; simp_all)

/-- Every halfword of parts is the encoding of what it decodes to: the formats of bits 15:11. -/
theorem encode_decodeThumbParts (p : ThumbParts) : encode (decodeThumbParts p) = .thumb p.toHalf := by
  unfold decodeThumbParts
  split
  · next h15 h14 => exact encode_decodeThumb00 h15 h14
  · next h15 h14 h13 h12 => exact encode_decodeThumb40 h15 h14 h13 h12
  · next h15 h14 h13 h12 => exact encode_decodeThumb50 h15 h14 h13 h12
  case h_14 h15 h14 h13 h12 => exact encode_decodeThumbB0 h15 h14 h13 h12
  case h_17 h15 h14 h13 h12 => exact encode_decodeThumbD0 h15 h14 h13 h12
  all_goals exact thumb_toHalf_congr (by cases p; simp_all)

end ThumbFamilies

/-- Settles O2: it holds; a word is its parts joined. -/
theorem encodeDecode : Obligations.EncodeDecode := by
  intro x
  cases x with
  | arm w => rw [decode, decodeArm, encode_decodeArmParts, ArmParts.toWord_ofWord]
  | thumb h => rw [decode, decodeThumb, encode_decodeThumbParts, ThumbParts.toHalf_ofHalf]

end Sys2Proof

namespace Sys2Proof.Machine

open Sys2Proof Sys2Proof.Claims

/-! ## The undefined classes, on the bits of a word -/

/-- A field equals a value bit by bit. -/
theorem extractLsb'_beq {m n : Nat} (x : BitVec m) (start : Nat) (v : BitVec n) :
    (x.extractLsb' start n == v) = (List.range n).all fun i => x.getLsbD (start + i) == v.getLsbD i := by
  rw [Bool.eq_iff_iff, beq_iff_eq, List.all_eq_true]
  simp only [List.mem_range, beq_iff_eq]
  refine ⟨fun h i hi => ?_, fun h => BitVec.eq_of_getLsbD_eq fun i hi => ?_⟩
  · rw [← h, BitVec.getLsbD_extractLsb', decide_eq_true hi, Bool.true_and]
  · rw [BitVec.getLsbD_extractLsb', decide_eq_true hi, Bool.true_and, h i hi]

/-- The classes (a) to (g) of 30_encoding.md R138, on the bits that their patterns fix. -/
theorem undefinedClass_toWord (p : ArmParts) : undefinedClass p.toWord =
    ((p.b22 && !p.b23 && !p.b24 && !p.b25 && !p.b26 && !p.b27 && (p.b4 && !p.b5 && !p.b6 && p.b7))
      || (p.b24 && !p.b25 && !p.b26 && !p.b27 && (p.b4 && !p.b5 && !p.b6 && p.b7) && (p.b23 || (p.b20 || p.b21)))
      || (!p.b25 && !p.b26 && !p.b27 && !p.b20 && p.b7 && p.b6 && p.b4)
      || (!p.b23 && p.b24 && !p.b25 && !p.b26 && !p.b27 && !p.b20 && !(p.b7 && p.b4)
        && !(!p.b4 && !p.b5 && !p.b6 && !p.b7 && !p.b21) && !(!p.b4 && !p.b5 && !p.b6 && !p.b7 && p.b21)
        && !(!p.b20 && p.b21 && !p.b22 && !p.b23 && p.b24 && !p.b25 && !p.b26 && !p.b27
          && (p.b4 && !p.b5 && !p.b6 && !p.b7)))
      || (!p.b23 && p.b24 && p.b25 && !p.b26 && !p.b27 && (!p.b20 && !p.b21))
      || (p.b25 && p.b26 && !p.b27 && p.b4)
      || (!p.b25 && p.b26 && p.b27) || (!p.b24 && p.b25 && p.b26 && p.b27)) := by
  simp only [undefinedClass, bne, extractLsb'_beq, ArmParts.getLsbD_toWord]
  simp [List.range_succ, Bool.and_assoc, Bool.or_assoc]

/-- The high bytes that 30_encoding.md R159 lists, on bits 15:8: 0xB1..0xB3, 0xB6..0xBB, 0xBE and 0xBF, 0xDE, and
0xE8..0xEF. -/
theorem undefinedHighByte_toHalf (p : ThumbParts) : undefinedHighByte (p.toHalf.extractLsb' 8 8) =
    ((p.b15 && !p.b14 && p.b13 && p.b12 && (p.b9 || (!p.b10 && (p.b11 || p.b8))))
      || (p.b15 && p.b14 && !p.b13 && p.b12 && p.b11 && p.b10 && p.b9 && !p.b8)
      || (p.b15 && p.b14 && p.b13 && !p.b12 && p.b11)) := by
  have bits : ∀ b : BitVec 8, undefinedHighByte b =
      ((b.getLsbD 7 && !b.getLsbD 6 && b.getLsbD 5 && b.getLsbD 4
          && (b.getLsbD 1 || (!b.getLsbD 2 && (b.getLsbD 3 || b.getLsbD 0))))
        || (b.getLsbD 7 && b.getLsbD 6 && !b.getLsbD 5 && b.getLsbD 4 && b.getLsbD 3 && b.getLsbD 2 && b.getLsbD 1
          && !b.getLsbD 0)
        || (b.getLsbD 7 && b.getLsbD 6 && b.getLsbD 5 && !b.getLsbD 4 && b.getLsbD 3)) := by decide
  rw [bits]
  simp [-BitVec.getLsbD_eq_getElem, BitVec.getLsbD_extractLsb', ThumbParts.getLsbD_toHalf]

/-- An ARM instruction takes the undefined trap exactly when its word falls in an undefined class. -/
theorem isUndefinedArm_of_encode {i : Instr} {w : Word} (h : encode i = .arm w) :
    isUndefinedArm i = undefinedClass w := by
  cases i with
  | tLslImm | tLsrImm | tAsrImm | tAddReg | tSubReg | tAddImm3 | tSubImm3 | tMovImm | tCmpImm | tAddImm8 | tSubImm8
  | tAnd | tEor | tLslReg | tLsrReg | tAsrReg | tAdc | tSbc | tRorReg | tTst | tNeg | tCmpReg | tCmn | tOrr | tMul
  | tBic | tMvn | tAddHi | tCmpHi | tMovHi | tBx | tLdrPc | tStrReg | tStrhReg | tStrbReg | tLdrsbReg | tLdrReg
  | tLdrhReg | tLdrbReg | tLdrshReg | tStrImm | tLdrImm | tStrbImm | tLdrbImm | tStrhImm | tLdrhImm | tStrSp | tLdrSp
  | tAddPc | tAddSp | tSpAdd | tSpSub | tUndefB1 | tPush | tUndefB8 | tPop | tUndefB2 | tStmia | tLdmia | tBcondD0
  | tBcondD8 | tBcondDC | tUndefDE | tSwi | tB | tUndefE8 | tBlFirst | tBlSecond => cases h
  | _ => cases h; rw [undefinedClass_toWord]; simp [isUndefinedArm]

/-- A Thumb instruction takes it exactly when the high byte of its halfword is listed. -/
theorem isUndefinedThumb_of_encode {i : Instr} {h : Half} (e : encode i = .thumb h) :
    isUndefinedThumb i = undefinedHighByte (h.extractLsb' 8 8) := by
  cases i with
  | tLslImm | tLsrImm | tAsrImm | tAddReg | tSubReg | tAddImm3 | tSubImm3 | tMovImm | tCmpImm | tAddImm8 | tSubImm8
  | tAnd | tEor | tLslReg | tLsrReg | tAsrReg | tAdc | tSbc | tRorReg | tTst | tNeg | tCmpReg | tCmn | tOrr | tMul
  | tBic | tMvn | tAddHi | tCmpHi | tMovHi | tBx | tLdrPc | tStrReg | tStrhReg | tStrbReg | tLdrsbReg | tLdrReg
  | tLdrhReg | tLdrbReg | tLdrshReg | tStrImm | tLdrImm | tStrbImm | tLdrbImm | tStrhImm | tLdrhImm | tStrSp | tLdrSp
  | tAddPc | tAddSp | tSpAdd | tSpSub | tUndefB1 | tPush | tUndefB8 | tPop | tUndefB2 | tStmia | tLdmia | tBcondD0
  | tBcondD8 | tBcondDC | tUndefDE | tSwi | tB | tUndefE8 | tBlFirst | tBlSecond =>
    cases e; rw [undefinedHighByte_toHalf]; simp [isUndefinedThumb]
  | _ => cases e

/-- Settles O4: it holds; the word of what a word decodes to is that word, and the encoder's rows show their class. -/
theorem undefinedClasses : Obligations.UndefinedClasses :=
  ⟨fun w => isUndefinedArm_of_encode (encodeDecode (.arm w)),
    fun h => isUndefinedThumb_of_encode (encodeDecode (.thumb h))⟩

/-! ## Conditions -/

/-- Settles O6: it holds; every ARM instruction begins with the check of its condition. -/
theorem failedConditionOnlyAdvances : Obligations.FailedConditionOnlyAdvances := by
  intro i c s hc hnv hfails ht
  obtain ⟨k, e⟩ := exec_eq_whenCond hc s
  rw [e, whenCond_fails k hnv hfails, advance, instrWidth, ht]
  rfl

/-- Settles O7: it holds, by the same check. -/
theorem nvConditionFaults : Obligations.NvConditionFaults := by
  intro i s hc
  obtain ⟨k, e⟩ := exec_eq_whenCond hc s
  rw [e, whenCond_nv]

/-- Settles O5: it holds; each predicate on the four flags, and the sixteen codes one by one. -/
theorem conditionTable : Obligations.ConditionTable := by
  refine ⟨fun p => ?_, by decide⟩
  obtain ⟨n, z, c, v, _⟩ := p
  simp only [condHolds]
  revert n z c v
  decide

/-- Settles O3: it holds; the decoder computes on the ten words. -/
theorem decodedWords : Obligations.DecodedWords := by
  unfold Obligations.DecodedWords
  decide

/-! ## What an ill-formed encoding answers -/

/-- Where there is a defect, the result is the fault that names it. -/
structure FaultsOn (r : Result) (d : Option UnpredictableCase) : Prop where
  faults : ∀ u, d = some u → r = .fault (.unpredictable u)

namespace FaultsOn

variable {s : State} {c : Cond} {r k : Result} {checks : List (Bool × UnpredictableCase)}

theorem none : FaultsOn r none := ⟨fun _ e => by cases e⟩

/-- An operation that makes the first check of the list, and goes on with the others. -/
theorem check {bad : Bool} {u : UnpredictableCase} (h : FaultsOn k (firstDefect checks)) :
    FaultsOn (faultIf bad u k) (firstDefect ((bad, u) :: checks)) := by
  cases bad with
  | true => exact ⟨fun _ e => by cases e; rfl⟩
  | false => exact h

/-- An ARM operation whose condition passes, or is NV, which is the first defect (30_encoding.md R124). -/
theorem whenCond (hp : (c == .nv || condHolds c s.cpsr) = true) (h : FaultsOn k (firstDefect checks)) :
    FaultsOn (whenCond c s k) (armDefect c checks) := by
  by_cases hnv : c = .nv
  · subst hnv
    exact ⟨fun _ e => by cases e; rfl⟩
  · have hc : condHolds c s.cpsr = true := by simpa [beq_eq_false_iff_ne.2 hnv] using hp
    rwa [whenCond_passes k hnv hc, armDefect, beq_eq_false_iff_ne.2 hnv]

/-- A last check that the operation makes of more than the encoding. -/
theorem checkMore {bad more : Bool} {u : UnpredictableCase} (h : bad = true → more = true) :
    FaultsOn (faultIf more u k) (firstDefect [(bad, u)]) := by
  cases bad with
  | true => exact ⟨fun _ e => by cases e; rw [h rfl]; rfl⟩
  | false => exact .none

section

variable (hp : (c == .nv || condHolds c s.cpsr) = true)
include hp

/-! ### The operations -/

theorem dataProcessing {op : DpOp} {sf : Bool} {rn rd : Reg} {o : Operand2} :
    FaultsOn (dataProcessing op c sf rn rd o s) (dpDefect c op.isMove op.isTest rn rd o.rsIsPc) :=
  whenCond hp <| check <| check .none

theorem mul {sf : Bool} {rd rn rs rm : Reg} : FaultsOn (multiply false c sf rd rn rs rm s)
    (armDefect c [(rn != 0, .sbzSbo), (rd == 15 || rs == 15 || rm == 15, .mulPc), (rd == rm, .mulOverlap)]) := by
  rw [multiply, Bool.not_false, Bool.true_and, Bool.false_and, Bool.or_false]
  exact whenCond hp <| check <| check <| check .none

theorem mla {sf : Bool} {rd rn rs rm : Reg} : FaultsOn (multiply true c sf rd rn rs rm s)
    (armDefect c [(rd == 15 || rs == 15 || rm == 15 || rn == 15, .mulPc), (rd == rm, .mulOverlap)]) := by
  rw [multiply, Bool.not_true, Bool.false_and, Bool.true_and, faultIf_false]
  exact whenCond hp <| check <| check .none

theorem multiplyLong {signed acc sf : Bool} {rdHi rdLo rs rm : Reg} :
    FaultsOn (multiplyLong signed acc c sf rdHi rdLo rs rm s) (longDefect c rdHi rdLo rs rm) :=
  whenCond hp <| check <| check .none

theorem swap {byte : Bool} {rn rd : Reg} {sbz : BitVec 4} {rm : Reg} :
    FaultsOn (swap byte c rn rd sbz rm s) (swapDefect c rn rd sbz rm) :=
  whenCond hp <| check <| check <| check .none

/-- The word and byte transfers, loads and stores, in the immediate and the shifted register form. -/
theorem wordByte {byte : Bool} {x : Indexing} {rn rd : Reg} {o : Offset} (ho : ∀ rm, o ≠ .reg rm) :
    FaultsOn (Machine.whenCond c s (faultIf (wordByteRestricted byte x rn rd o) .lsPc k))
      (wordByteDefect c byte x.writeback rn rd o.regs.head?) := by
  refine whenCond hp <| checkMore fun h => ?_
  cases o with
  | imm => simpa [wordByteRestricted, Offset.isPc, Offset.scaledBy, Offset.regs] using h
  | scaled => simpa [wordByteRestricted, Offset.isPc, Offset.scaledBy, Offset.regs] using h
  | reg rm => exact absurd rfl (ho rm)

/-- The halfword and signed transfers, loads and stores, in the immediate and the plain register form. -/
theorem halfword {x : Indexing} {rn rd : Reg} {sbz : BitVec 4} {o : Offset}
    (ho : ∀ amt k rm, o ≠ .scaled amt k rm) :
    FaultsOn (Machine.whenCond c s (faultIf (sbz != 0) .sbzSbo (faultIf (halfwordRestricted x rn rd o) .lsPc k)))
      (halfwordDefect c x.p x.w rn rd sbz o.regs.head?) := by
  refine whenCond hp <| check <| checkMore fun h => ?_
  cases o with
  | imm => simpa [halfwordRestricted, Indexing.writeback, Offset.isPc, Offset.isReg, Offset.regs] using h
  | reg => simpa [halfwordRestricted, Indexing.writeback, Offset.isPc, Offset.isReg, Offset.regs] using h
  | scaled amt k rm => exact absurd rfl (ho amt k rm)

theorem storeMultiple {p u sf w : Bool} {rn : Reg} {list : BitVec 16} : FaultsOn (storeMultiple c p u sf w rn list s)
    (armDefect c [(rn == 15, .ldmStmPcBase), (sf && w, .ldmStmUserBank)]) :=
  whenCond hp <| check <| checkMore fun h => by
    obtain ⟨rfl, rfl⟩ := (Bool.and_eq_true ..).mp h
    simp

/-- An LDM of the User bank with write-back faults, whether its mode has an SPSR or not (43_arm_load_store.md R308). -/
theorem loadMultiple {p u sf w : Bool} {rn : Reg} {list : BitVec 16} : FaultsOn (loadMultiple c p u sf w rn list s)
    (armDefect c [(rn == 15, .ldmStmPcBase), (sf && w && list != 0 && !list.getLsbD 15, .ldmStmUserBank)]) := by
  refine whenCond hp <| check ?_
  cases hbad : sf && w && list != 0 && !list.getLsbD 15 with
  | false => exact .none
  | true =>
    simp only [Bool.and_eq_true, bne_iff_ne, Bool.not_eq_true'] at hbad
    obtain ⟨⟨⟨rfl, rfl⟩, hlist⟩, hbit⟩ := hbad
    have h15 : (transferredRegs list).contains 15 = false := by
      rw [List.contains_eq_mem, decide_eq_false_iff_not, pc_mem_transferredRegs, hbit]
      exact not_or.2 ⟨hlist, Bool.false_ne_true⟩
    rw [h15]
    refine ⟨fun _ e => ?_⟩
    cases e
    cases hspsr : s.cpsr.mode.spsr == Option.none with
    | true => rfl
    | false => rfl

end

end FaultsOn

/-- An instruction whose condition passes, or that has none, faults on the defect of its encoding: each constructor of
`Instr` under the operation its meaning is. -/
theorem exec_faultsOn {i : Instr} {s : State} (hp : passes i s = true) : FaultsOn (exec i s) i.defect := by
  cases i with
  | andImmShift | eorImmShift | subImmShift | rsbImmShift | addImmShift | adcImmShift | sbcImmShift | rscImmShift
  | tstImmShift | teqImmShift | cmpImmShift | cmnImmShift | orrImmShift | movImmShift | bicImmShift | mvnImmShift
  | andRegShift | eorRegShift | subRegShift | rsbRegShift | addRegShift | adcRegShift | sbcRegShift | rscRegShift
  | tstRegShift | teqRegShift | cmpRegShift | cmnRegShift | orrRegShift | movRegShift | bicRegShift | mvnRegShift
  | andImm | eorImm | subImm | rsbImm | addImm | adcImm | sbcImm | rscImm
  | tstImm | teqImm | cmpImm | cmnImm | orrImm | movImm | bicImm | mvnImm => exact .dataProcessing hp
  | mrs | msrReg => exact .whenCond hp <| .check <| .check .none
  | msrImm => exact .whenCond hp <| .check .none
  | umull | umlal | smull | smlal => exact .multiplyLong hp
  | swp | swpb => exact .swap hp
  | bx => exact .whenCond hp <| .check .none
  | b | bl | swi | undefMisc01000020 | undefMisc01000040 | undefMisc01000080 | undefMisc01000010 | undefMisc01200030
  | undefMisc01200050 | undefMisc01400010 | undefMulSwap00400090 | undefMulSwap01100090 | undefMulSwap01200090
  | undefMulSwap01800090 | undefHalfStore | undefTstImm | undefArch
  | stc | ldc | cdp | mcr | mrc => exact .whenCond hp .none
  | mul => exact .mul hp
  | mla => exact .mla hp
  | strImmPost | ldrImmPost | strtImm | ldrtImm | strbImmPost | ldrbImmPost | strbtImm | ldrbtImm
  | strImmPre | ldrImmPre | strbImmPre | ldrbImmPre
  | strRegPost | ldrRegPost | strtReg | ldrtReg | strbRegPost | ldrbRegPost | strbtReg | ldrbtReg
  | strRegPre | ldrRegPre | strbRegPre | ldrbRegPre => exact .wordByte hp nofun
  | strhReg | ldrhReg | strhImm | ldrhImm | ldrsbReg | ldrshReg | ldrsbImm | ldrshImm => exact .halfword hp nofun
  | ldm => exact .loadMultiple hp
  | stm => exact .storeMultiple hp
  | tMul | tAddHi | tCmpHi | tMovHi | tBx => exact .check .none
  | _ => exact .none

/-- Settles O8: it holds; every operation makes the checks of the encoding first, in the order of `Instr.defect`. -/
theorem illFormedFaults : Obligations.IllFormedFaults := fun _ u _ hd hp => (exec_faultsOn hp).faults u hd

end Sys2Proof.Machine


/-! The barrel shifter in closed form: each shift function by an amount of at least 1 is one shift and one bit of the
value, without the table of amounts (40_shifter.md R181 to R191). -/

namespace Sys2Proof.Machine

open Sys2Proof Sys2Proof.Claims

/-! ## The bits of a word shifted right with its sign, or rotated -/

theorem getLsbD_sshiftRight_word (v : Word) (n : Nat) {i : Nat} (hi : i < 32) :
    (v.sshiftRight n).getLsbD i = v.getLsbD (min (i + n) 31) := by
  rw [BitVec.getLsbD_sshiftRight, decide_eq_false (by omega), Bool.not_false, Bool.true_and]
  split
  · rw [Nat.add_comm, Nat.min_eq_left (by omega)]
  · rw [Nat.min_eq_right (by omega), BitVec.msb_eq_getLsbD_last]

theorem getLsbD_rotateRight_word (v : Word) (n : Nat) {i : Nat} (hi : i < 32) :
    (v.rotateRight n).getLsbD i = v.getLsbD ((i + n) % 32) := by
  rw [BitVec.getLsbD_rotateRight, decide_eq_true hi, Bool.true_and]
  by_cases hwrap : i < 32 - n % 32
  · rw [decide_eq_true hwrap, cond_true, show (i + n) % 32 = n % 32 + i by omega]
  · rw [decide_eq_false hwrap, cond_false, show (i + n) % 32 = i - (32 - n % 32) by omega]

/-- Past the last bit a shift right with the sign leaves only the sign. -/
theorem sshiftRight_of_ge (v : Word) {n : Nat} (hn : 32 ≤ n) : v.sshiftRight n = if v.msb then 0xFFFFFFFF else 0 := by
  refine BitVec.eq_of_getLsbD_eq fun i hi => ?_
  rw [BitVec.getLsbD_sshiftRight, if_neg (by omega), decide_eq_false (by omega), Bool.not_false, Bool.true_and]
  cases v.msb with
  | false => exact BitVec.getLsbD_zero.symm
  | true => exact (BitVec.getLsbD_allOnes.trans (decide_eq_true hi)).symm

/-- A rotation by whole words does nothing. -/
theorem rotateRight_of_mod_eq_zero (v : Word) {n : Nat} (h : n % 32 = 0) : v.rotateRight n = v :=
  BitVec.eq_of_getLsbD_eq fun i hi => by rw [getLsbD_rotateRight_word v n hi, show (i + n) % 32 = i by omega]

/-! ## The shift functions by a non-zero amount -/

/-- `LSL_C` (40_shifter.md R181): beyond 32 the bit shifted out is one of the zeros below bit 0. -/
theorem lslC_of_pos (v : Word) {n : Nat} (c : Bool) (hn : 1 ≤ n) :
    lslC v n c = (v <<< n, decide (n ≤ 32) && v.getLsbD (32 - n)) := by
  unfold lslC
  split
  · omega
  split
  · simp [show n ≤ 32 by omega]
  have hzero : v <<< n = 0 := BitVec.shiftLeft_eq_zero (by omega)
  split
  · next h => simp [h]
  · simp [hzero, show ¬ n ≤ 32 by omega]

/-- `LSR_C` (40_shifter.md R182): past the last bit, bit `n - 1` is 0. -/
theorem lsrC_of_pos (v : Word) {n : Nat} (c : Bool) (hn : 1 ≤ n) : lsrC v n c = (v >>> n, v.getLsbD (n - 1)) := by
  unfold lsrC
  split
  · omega
  split
  · rfl
  have hzero : v >>> n = 0 := BitVec.ushiftRight_eq_zero (by omega)
  split
  · next h => rw [hzero, h]
  · rw [hzero, BitVec.getLsbD_of_ge v _ (by omega)]

/-- `ASR_C` (40_shifter.md R183): the sign goes on above bit 31. -/
theorem asrC_of_pos (v : Word) {n : Nat} (c : Bool) (hn : 1 ≤ n) :
    asrC v n c = (v.sshiftRight n, v.getLsbD (min (n - 1) 31)) := by
  unfold asrC
  split
  · omega
  split
  · rw [Nat.min_eq_left (by omega)]
  · rw [sshiftRight_of_ge v (by omega), Nat.min_eq_right (by omega), BitVec.msb_eq_getLsbD_last]

/-- `ROR_C` (40_shifter.md R184): the word repeats above bit 31. -/
theorem rorC_of_pos (v : Word) {n : Nat} (c : Bool) (hn : 1 ≤ n) :
    rorC v n c = (v.rotateRight n, v.getLsbD ((n - 1) % 32)) := by
  unfold rorC
  split
  · omega
  split
  · next h => rw [rotateRight_of_mod_eq_zero v h, show (n - 1) % 32 = 31 by omega]
  · rw [BitVec.rotateRight_mod_eq_rotateRight, show (n - 1) % 32 = n % 32 - 1 by omega]

/-! ## The contexts -/

/-- An immediate amount other than 0 is not reinterpreted (40_shifter.md R186). -/
theorem shiftByImm_of_ne_zero (k : ShiftKind) (v : Word) {amt : BitVec 5} (c : Bool) (h : amt ≠ 0) :
    shiftByImm k v amt c = shiftByReg k v amt.toNat c := by
  cases k with
  | lsl => rfl
  | lsr | asr | ror => simp only [shiftByImm, shiftByReg, if_neg h]

/-- A rotated immediate carries out its own top bit (40_shifter.md R185). -/
theorem rotatedImm_of_ne_zero {rot : BitVec 4} (imm : BitVec 8) (c : Bool) (h : rot ≠ 0) :
    rotatedImm rot imm c = ((imm.setWidth 32 : Word).rotateRight (2 * rot.toNat),
      ((imm.setWidth 32 : Word).rotateRight (2 * rot.toNat)).getLsbD 31) := by
  unfold rotatedImm
  rw [if_neg h, ← BitVec.msb_eq_getLsbD_last]

theorem shiftAmount_eq_mod (v : Word) : shiftAmount v = v.toNat % 256 := by
  rw [shiftAmount, BitVec.extractLsb'_toNat, Nat.shiftRight_zero]

/-- Settles O20: it holds; the closed forms give the value and the carry, and the library the bits of the value. -/
theorem shiftBits : Obligations.ShiftBits := by
  refine ⟨fun v n c hn => ?_, fun k v _ c h => shiftByImm_of_ne_zero k v c h, shiftAmount_eq_mod, fun _ _ _ => rfl,
    fun _ _ _ _ => rfl, fun s rs k rm => ?_, fun s f => ?_⟩
  · simp only [shiftByReg, lslC_of_pos v c hn, lsrC_of_pos v c hn, asrC_of_pos v c hn, rorC_of_pos v c hn, and_true]
    refine fun i hi => ⟨?_, ?_, getLsbD_sshiftRight_word v n hi, getLsbD_rotateRight_word v n hi⟩
    · simp only [BitVec.getLsbD_shiftLeft, hi, decide_true, Bool.true_and, ← decide_not, Nat.not_lt]
    · rw [BitVec.getLsbD_ushiftRight, Nat.add_comm]
  · rw [← shiftAmount_eq_mod]
    rfl
  · rw [DpForm.first, operandReg, pcRead]
    cases f.o with
    | imm | immShift | regShift => rfl

/-- Settles O19: it holds; every clause but the last computes, at its one amount. -/
theorem shiftEdgeCases : Obligations.ShiftEdgeCases := by
  refine fun v c => ⟨rfl, rfl, rfl, rfl, fun k => ?_, rfl, rfl, rfl, rfl, rfl, rfl, rfl, rfl, fun _ => rfl,
    fun rot imm hrot => ?_⟩
  · cases k with
    | lsl | lsr | asr | ror => rfl
  · exact rotatedImm_of_ne_zero imm c hrot

end Sys2Proof.Machine


/-! Data processing (41_arm_data_processing.md): `AddWithCarry` in exact arithmetic, the result and the flags of each
operation, and where they go. -/

namespace Sys2Proof.Machine

open Sys2Proof Sys2Proof.Claims

/-! ## `AddWithCarry` in exact arithmetic (41_arm_data_processing.md R212) -/

section
variable (x y : Word) (c : Bool)

theorem addWithCarry_result : (addWithCarry x y c).result = x + y + if c then 1 else 0 := by
  refine BitVec.eq_of_toNat_eq ?_
  cases c <;> simp [addWithCarry, BitVec.toNat_add]

theorem addWithCarry_carry :
    (addWithCarry x y c).carry = decide ((2 : Int) ^ 32 ≤ x.toNat + y.toNat + if c then 1 else 0) := by
  refine decide_eq_decide.2 ?_
  cases c <;> simp <;> omega

/-- The sign rule holds exactly where the signed sum does not fit. -/
theorem addWithCarry_overflow :
    (addWithCarry x y c).overflow = decide (x.toInt + y.toInt + (if c then 1 else 0) < -(2 ^ 31)
      ∨ 2 ^ 31 ≤ x.toInt + y.toInt + if c then 1 else 0) := by
  have hx := x.isLt
  have hy := y.isLt
  simp only [addWithCarry, BitVec.msb_eq_decide, BitVec.toInt_eq_toNat_cond, BitVec.toNat_ofNat]
  rw [Bool.eq_iff_iff]
  simp only [Bool.and_eq_true, beq_iff_eq, bne_iff_ne, ne_eq, decide_eq_decide, decide_eq_true_eq]
  cases c <;> simp <;> omega

/-- Adding the complement with the carry subtracts, and without it one more. -/
theorem addWithCarry_not_result : (addWithCarry x (~~~y) c).result = x - y - if c then 0 else 1 := by
  rw [addWithCarry_result, BitVec.not_eq_neg_add]
  cases c <;> simp <;> ring

theorem addWithCarry_not_carry :
    (addWithCarry x (~~~y) c).carry = decide ((0 : Int) ≤ x.toNat - y.toNat - if c then 0 else 1) := by
  rw [addWithCarry_carry, BitVec.toNat_not]
  have hy := y.isLt
  refine decide_eq_decide.2 ?_
  cases c <;> simp <;> omega

theorem toInt_not_word : (~~~y).toInt = -y.toInt - 1 := by
  have hy := y.isLt
  rw [BitVec.toInt_eq_toNat_cond, BitVec.toInt_eq_toNat_cond, BitVec.toNat_not]
  omega

theorem addWithCarry_not_overflow :
    (addWithCarry x (~~~y) c).overflow = decide (x.toInt - y.toInt - (if c then 0 else 1) < -(2 ^ 31)
      ∨ 2 ^ 31 ≤ x.toInt - y.toInt - if c then 0 else 1) := by
  rw [addWithCarry_overflow, toInt_not_word]
  refine decide_eq_decide.2 ?_
  cases c <;> simp <;> omega

end

/-! ## The sixteen operations (41_arm_data_processing.md R213 to R228) -/

theorem logicalOut_eq_spec {op : DpOp} {a b r : Word} {sc : Bool} {p : Psr} (hop : isLogical op = true)
    (hr : r = specResult op a b p.c) : logicalOut p r sc = (specResult op a b p.c, specFlags op a b sc p) := by
  simp only [logicalOut, logicalFlags, specFlags, hop, hr, BitVec.msb_eq_getLsbD_last]
  rfl

section
variable {op : DpOp} {a b x y : Word} {cin : Bool} {p : Psr} (hop : isLogical op = false)
include hop

theorem arithOut_eq_spec {u : Sum} (sc : Bool) (hr : u.result = specResult op a b p.c)
    (hc : u.carry = specCarry op a b p.c) (hv : u.overflow = specOverflow op a b p.c) :
    arithOut p u = (specResult op a b p.c, specFlags op a b sc p) := by
  simp only [arithOut, arithFlags, specFlags, hop, hr, hc, hv, BitVec.msb_eq_getLsbD_last]
  rfl

/-- An operation that adds `x`, `y` and a carry. -/
theorem arithOut_addition (hadd : isAddition op = true) (sc : Bool)
    (hr : x + y + (if cin then 1 else 0) = specResult op a b p.c)
    (hu : (x.toNat : Int) + y.toNat + (if cin then 1 else 0) = exactValue op a.toNat b.toNat p.c)
    (hs : x.toInt + y.toInt + (if cin then 1 else 0) = exactValue op a.toInt b.toInt p.c) :
    arithOut p (addWithCarry x y cin) = (specResult op a b p.c, specFlags op a b sc p) := by
  refine arithOut_eq_spec hop sc ?_ ?_ ?_
  · rw [addWithCarry_result, hr]
  · rw [addWithCarry_carry, hu, specCarry, if_pos hadd]
  · rw [addWithCarry_overflow, hs, specOverflow]

/-- An operation that subtracts `y` and a borrow from `x`. -/
theorem arithOut_subtraction (hsub : isAddition op = false) (sc : Bool)
    (hr : x - y - (if cin then 0 else 1) = specResult op a b p.c)
    (hu : (x.toNat : Int) - y.toNat - (if cin then 0 else 1) = exactValue op a.toNat b.toNat p.c)
    (hs : x.toInt - y.toInt - (if cin then 0 else 1) = exactValue op a.toInt b.toInt p.c) :
    arithOut p (addWithCarry x (~~~y) cin) = (specResult op a b p.c, specFlags op a b sc p) := by
  refine arithOut_eq_spec hop sc ?_ ?_ ?_
  · rw [addWithCarry_not_result, hr]
  · rw [addWithCarry_not_carry, hu, specCarry, hsub, if_neg Bool.false_ne_true]
  · rw [addWithCarry_not_overflow, hs, specOverflow]

end

/-- Each operation gives the result and the flags of exact arithmetic. -/
theorem dpCompute_eq_spec (op : DpOp) (a b : Word) (sc : Bool) (p : Psr) :
    dpCompute op a b sc p = (specResult op a b p.c, specFlags op a b sc p) := by
  cases op with
  | and | eor | tst | teq | orr | mov | bic | mvn => exact logicalOut_eq_spec rfl rfl
  | add | cmn => exact arithOut_addition rfl rfl sc (add_zero _) (add_zero _) (add_zero _)
  | adc => exact arithOut_addition rfl rfl sc rfl rfl rfl
  | sub | cmp | rsb => exact arithOut_subtraction rfl rfl sc (sub_zero _) (sub_zero _) (sub_zero _)
  | sbc | rsc => exact arithOut_subtraction rfl rfl sc rfl rfl rfl

theorem dpOutcome_eq (f : DpForm) (s : State) : dpOutcome f.op f.rn f.o s = (f.value s, f.flags s) :=
  dpCompute_eq_spec ..

/-- No operation writes more of CPSR than its flags. -/
theorem specFlags_mode (op : DpOp) (a b : Word) (sc : Bool) (p : Psr) : (specFlags op a b sc p).mode = p.mode := by
  unfold specFlags
  dsimp only
  split <;> rfl

theorem specFlags_t (op : DpOp) (a b : Word) (sc : Bool) (p : Psr) : (specFlags op a b sc p).t = p.t := by
  unfold specFlags
  dsimp only
  split <;> rfl

/-! ## How an instruction ends -/

/-- The PC advance after what leaves R15, T and the fetch. -/
theorem advanced_of_samePc {s u : State} (h : SamePc s u) (hf : u.lastFetch = s.lastFetch) : Advanced s (advance u) :=
  ⟨by rw [advance_pc, instrWidth, h.pc, h.t], rfl, hf⟩

theorem jumped_writePc (u : State) (v : Word) : Jumped (fetchAddress u.cpsr.t v) (writePc u v) := ⟨rfl, rfl, rfl⟩

theorem fetchAddress_eq_and (t : Bool) (v : Word) :
    fetchAddress t v = v &&& if t then 0xFFFFFFFE else 0xFFFFFFFC := by
  cases t <;> rfl

end Sys2Proof.Machine

namespace Sys2Proof.Claims

open Sys2Proof Sys2Proof.Machine

/-! ## The frame of an operation that stores nothing -/

namespace FlagFrame

variable {changed : List PhysReg} {s u t : State}

theorem trans (h : FlagFrame changed s u) (k : FlagFrame changed u t) : FlagFrame changed s t where
  regs p hp hc := (k.regs p hp hc).trans (h.regs p hp hc)
  spsrs n hn := (k.spsrs n hn).trans (h.spsrs n hn)
  mem a := (k.mem a).trans (h.mem a)
  host := Keeps.sameHost_trans h.host k.host

theorem charge (s : State) (n : Nat) : FlagFrame changed s (charge s n) :=
  ⟨fun p _ _ => readPhys_charge s n p, fun k _ => readSpsr_charge s n k, fun _ => rfl, Keeps.sameHost_refl s⟩

theorem setCpsr (s : State) (p : Psr) : FlagFrame changed s { s with cpsr := p } :=
  ⟨fun q _ _ => readPhys_setCpsr s p q, fun n _ => by cases n <;> rfl, fun _ => rfl, Keeps.sameHost_refl s⟩

theorem advance (s : State) : FlagFrame changed s (advance s) :=
  ⟨fun q hq _ => readPhys_advance s q hq, fun n _ => readSpsr_advance s n, fun _ => rfl, Keeps.sameHost_refl s⟩

theorem writePc (s : State) (v : Word) : FlagFrame changed s (writePc s v) :=
  ⟨fun q hq _ => readPhys_writePc s v q hq, fun n _ => readSpsr_writePc s v n, fun _ => rfl, Keeps.sameHost_refl s⟩

theorem setReg {r : Reg} (h : bank s.cpsr.mode r ∈ changed) (v : Word) : FlagFrame changed s (setReg s r v) :=
  ⟨fun q _ hq => readPhys_setReg_ne s r v q fun e => hq (e ▸ h), fun n _ => readSpsr_setReg s r v n,
    fun _ => by rw [setReg_mem], (Keeps.setReg s r v).host⟩

/-- Where CPSR is as it was too. -/
theorem withCpsr (h : FlagFrame changed s t) (hc : t.cpsr = s.cpsr) : Frame changed s t :=
  ⟨h.regs, hc, h.spsrs, h.mem, h.host⟩

end FlagFrame

end Sys2Proof.Claims

namespace Sys2Proof.Machine

open Sys2Proof Sys2Proof.Claims

/-! ## Where the result and the flags go (41_arm_data_processing.md R210) -/

section
variable {op : DpOp} (sf : Bool) {rd : Reg} (out : Word × Psr) (s : State)

theorem dpWrite_test (hop : op.isTest = true) :
    dpWrite op sf rd out s = .next (advance { s with cpsr := out.2 }) := if_pos hop

theorem dpWrite_reg (hop : op.isTest = false) (hrd : rd ≠ 15) : dpWrite op sf rd out s
    = .next (advance (setReg { s with cpsr := if sf then out.2 else s.cpsr } rd out.1)) := by
  rw [dpWrite, hop, if_neg Bool.false_ne_true, if_neg hrd]
  cases sf <;> rfl

theorem dpWrite_jump (hop : op.isTest = false) : dpWrite op false 15 out s = .next (writePc s out.1) := by
  rw [dpWrite, hop]
  rfl

theorem dpWrite_return (hop : op.isTest = false) :
    dpWrite op true 15 out s = andThen (restoreCpsr s) fun u => .next (writePc u out.1) := by
  rw [dpWrite, hop]
  rfl

end

/-! ## The return from an exception (10_state.md R42) -/

theorem restoreCpsr_of_psr {s : State} {n : SpsrName} {p : Psr} (hn : s.cpsr.mode.spsr = some n)
    (hp : psrOfWord (readSpsr s n) = some p) : restoreCpsr s = .next { s with cpsr := p } := by
  cases hm : modeOfBits ((readSpsr s n).extractLsb' 0 5) with
  | none =>
    rw [psrOfWord, hm] at hp
    cases hp
  | some m =>
    rw [psrOfWord, hm] at hp
    cases hp
    simp only [restoreCpsr, hn, hm]
    rfl

theorem restoreCpsr_no_mode {s : State} {n : SpsrName} (hn : s.cpsr.mode.spsr = some n)
    (hp : psrOfWord (readSpsr s n) = none) :
    restoreCpsr s = .fault (.invalidMode ((readSpsr s n).extractLsb' 0 5)) := by
  cases hm : modeOfBits ((readSpsr s n).extractLsb' 0 5) with
  | none => simp only [restoreCpsr, hn, hm]
  | some m =>
    rw [psrOfWord, hm] at hp
    cases hp

/-! ## A data-processing instruction that is ready -/

theorem exec_dpForm_of_ready {i : Instr} {f : DpForm} {s : State} (h : dpForm i = some f)
    (hready : ready i s f.regs = true) :
    exec i s = dpWrite f.op f.sf f.rd (f.value s, f.flags s) (charge s f.o.internal) := by
  obtain ⟨hr, hb⟩ := ready_iff.1 hready
  rw [exec_dpForm h hr, hb, faultIf_false, dpOutcome_eq]

/-- Data processing is of the ARM set. -/
theorem condOf_of_dpForm {i : Instr} {f : DpForm} (h : dpForm i = some f) : ∃ c, condOf i = some c := by
  cases i with
  | andImmShift | eorImmShift | subImmShift | rsbImmShift | addImmShift | adcImmShift | sbcImmShift | rscImmShift
  | tstImmShift | teqImmShift | cmpImmShift | cmnImmShift | orrImmShift | movImmShift | bicImmShift | mvnImmShift
  | andRegShift | eorRegShift | subRegShift | rsbRegShift | addRegShift | adcRegShift | sbcRegShift | rscRegShift
  | tstRegShift | teqRegShift | cmpRegShift | cmnRegShift | orrRegShift | movRegShift | bicRegShift | mvnRegShift
  | andImm | eorImm | subImm | rsbImm | addImm | adcImm | sbcImm | rscImm
  | tstImm | teqImm | cmpImm | cmnImm | orrImm | movImm | bicImm | mvnImm => exact ⟨_, rfl⟩
  | _ => cases h

/-- An instruction with a condition runs in ARM state. -/
theorem armState_of_runs {i : Instr} {s : State} {c : Cond} (hr : runs i s = true) (hc : condOf i = some c) :
    s.cpsr.t = false := by
  simp only [runs, hc, Bool.and_eq_true, Bool.not_eq_true'] at hr
  obtain ⟨⟨⟨ht, -⟩, -⟩, -⟩ := hr
  exact ht

/-- Settles O15: it holds; the result goes to Rd, the flags to CPSR where S is set, and R15 advances. -/
theorem dpResults : Obligations.DpResults := by
  intro i f s hf hready htest hrd
  rw [exec_dpForm_of_ready hf hready, dpWrite_reg _ _ _ htest hrd]
  have hmode : (if f.sf then f.flags s else s.cpsr).mode = s.cpsr.mode := by
    split
    · exact specFlags_mode ..
    · rfl
  have ht : (if f.sf then f.flags s else s.cpsr).t = s.cpsr.t := by
    split
    · exact specFlags_t ..
    · rfl
  refine ⟨_, rfl, ?_, ?_, advanced_of_samePc ?_ ?_, ?_⟩
  · rw [readReg_advance _ _ hrd, readReg_setReg_same]
  · rw [advance_cpsr, setReg_cpsr]
    rfl
  · exact ((SamePc.charge s _).trans (.setCpsr ht)).trans (.setReg hrd)
  · rw [setReg_lastFetch]
    rfl
  · refine (((FlagFrame.charge s _).trans (.setCpsr _ _)).trans (.setReg ?_ _)).trans (.advance _)
    exact List.mem_singleton.2 (congrArg (bank · f.rd) hmode)

/-- Settles O16: it holds; a test writes CPSR alone. -/
theorem dpTests : Obligations.DpTests := by
  intro i f s hf hready htest
  rw [exec_dpForm_of_ready hf hready, dpWrite_test _ _ _ htest]
  have ht : (f.flags s).t = (charge s f.o.internal).cpsr.t := specFlags_t ..
  obtain ⟨advanced, frame⟩ := advance_setCpsr ht
  exact ⟨_, rfl, rfl, advanced, (FlagFrame.charge s _).trans frame⟩

/-- Settles O17: it holds; the instruction runs in ARM state, where a PC write clears two bits. -/
theorem dpJump : Obligations.DpJump := by
  intro i f s hf hready htest hrd hsf
  rw [exec_dpForm_of_ready hf hready, hrd, hsf, dpWrite_jump _ _ htest]
  obtain ⟨c, hc⟩ := condOf_of_dpForm hf
  have ht : s.cpsr.t = false := armState_of_runs (ready_iff.1 hready).1 hc
  refine ⟨_, rfl, ?_, ((FlagFrame.charge s _).trans (.writePc _ _)).withCpsr rfl⟩
  have jumped := jumped_writePc (charge s f.o.internal) (f.value s)
  rwa [charge_cpsr, ht] at jumped

/-- Settles O18: it holds; CPSR is restored before the PC write, which aligns by the restored T. -/
theorem dpReturn : Obligations.DpReturn := by
  intro i f s n hf hready htest hrd hsf hn
  rw [exec_dpForm_of_ready hf hready, hrd, hsf, dpWrite_return _ _ htest]
  refine ⟨fun p hp => ?_, fun hp => ?_⟩
  · rw [restoreCpsr_of_psr (s := charge s _) hn (by rwa [readSpsr_charge]), andThen_next]
    refine ⟨_, rfl, rfl, ?_, ((FlagFrame.charge s _).trans (.setCpsr _ _)).trans (.writePc _ _)⟩
    rw [← fetchAddress_eq_and]
    exact jumped_writePc { charge s f.o.internal with cpsr := p } (f.value s)
  · rw [restoreCpsr_no_mode (s := charge s _) hn (by rwa [readSpsr_charge]), andThen_fault, readSpsr_charge]

end Sys2Proof.Machine


/-! An instruction under way: what it has left as it was when it comes to its PC advance, one rule per operation it
makes before that. -/

namespace Sys2Proof.Machine

open Sys2Proof Sys2Proof.Claims

/-- From `s`, an instruction has written only registers that `s` shows as those of `rs`, bytes of `stored` and the
flags and masks of CPSR. -/
structure Underway (rs : List Reg) (stored : Word → Prop) (s u : State) : Prop where
  regs : SameRegs (seen s rs) s u
  spsrs : SameSpsrs [] s u
  mem : ∀ b, ¬ stored b → byteAt u.mem b = byteAt s.mem b
  host : SameHostState s u
  pc : SamePc s u
  mode : u.cpsr.mode = s.cpsr.mode
  fetch : u.lastFetch = s.lastFetch

namespace Underway

variable {rs : List Reg} {stored : Word → Prop} {s u t : State}

theorem trans (h : Underway rs stored s u) (k : Underway rs stored u t) : Underway rs stored s t where
  regs p hp hc := (k.regs p hp (by rwa [seen, h.mode])).trans (h.regs p hp hc)
  spsrs n hn := (k.spsrs n hn).trans (h.spsrs n hn)
  mem b hb := (k.mem b hb).trans (h.mem b hb)
  host := Keeps.sameHost_trans h.host k.host
  pc := h.pc.trans k.pc
  mode := k.mode.trans h.mode
  fetch := k.fetch.trans h.fetch

/-! ## The operations -/

theorem charge (s : State) (n : Nat) : Underway rs stored s (charge s n) :=
  ⟨fun p _ _ => readPhys_charge s n p, fun k _ => readSpsr_charge s n k, fun _ _ => rfl, Keeps.sameHost_refl s,
    .charge s n, rfl, rfl⟩

theorem drew (s : State) : Underway rs stored s (drew s) :=
  ⟨fun p _ _ => readPhys_drew s p, fun k _ => readSpsr_drew s k, fun _ _ => rfl, Keeps.sameHost_refl s, .drew s, rfl,
    rfl⟩

theorem noteAccess (s : State) (x : BusAccess) : Underway rs stored s (noteAccess s x) :=
  ⟨fun p _ _ => readPhys_noteAccess s x p, fun k _ => by cases k <;> rfl, fun _ _ => rfl, Keeps.sameHost_refl s,
    ⟨rfl, rfl⟩, rfl, rfl⟩

theorem noteLoad (s : State) (q : Bool) (k : LoadKind) (a : Word) : Underway rs stored s (noteLoad s q k a) :=
  noteAccess s _

/-- A write of CPSR that keeps T and the mode. -/
theorem setCpsr {p : Psr} (ht : p.t = s.cpsr.t) (hm : p.mode = s.cpsr.mode) :
    Underway rs stored s { s with cpsr := p } :=
  ⟨fun q _ _ => readPhys_setCpsr s p q, fun k _ => by cases k <;> rfl, fun _ _ => rfl, Keeps.sameHost_refl s,
    .setCpsr ht, hm, rfl⟩

theorem setReg {r : Reg} (hr : r ∈ rs) (hpc : r ≠ 15) (v : Word) : Underway rs stored s (setReg s r v) :=
  ⟨fun p _ hp => readPhys_setReg_ne s r v p fun e => hp (e ▸ List.mem_map_of_mem hr),
    fun k _ => readSpsr_setReg s r v k, fun _ _ => by rw [setReg_mem], (Keeps.setReg s r v).host, .setReg hpc,
    by rw [setReg_cpsr], setReg_lastFetch s r v⟩

/-- A write through the interface, to bytes that may change. -/
theorem busWrite {w : Width} {a : Word} (ha : ∀ b, InAccess w a b → stored b) (v : Word) :
    Underway rs stored s { s with mem := busWrite s w a v } :=
  ⟨fun p _ _ => readPhys_setMem s _ p, fun k _ => by cases k <;> rfl,
    fun b hb => byteAt_busWrite_of_outside s w a v b fun k hk e => hb (ha b ⟨k, hk, e⟩), Keeps.sameHost_refl s,
    ⟨rfl, rfl⟩, rfl, rfl⟩

/-! ## The PC advance -/

theorem advanced (h : Underway rs stored s u) : Advanced s (advance u) := advanced_of_samePc h.pc h.fetch

theorem flagFrame (h : Underway rs (fun _ => False) s u) : FlagFrame (seen s rs) s (advance u) :=
  FlagFrame.trans ⟨h.regs, h.spsrs, fun a => h.mem a id, h.host⟩ (.advance u)

theorem frame (h : Underway rs (fun _ => False) s u) (hc : u.cpsr = s.cpsr) : Frame (seen s rs) s (advance u) :=
  h.flagFrame.withCpsr hc

theorem storeFrame (h : Underway rs stored s u) (hc : u.cpsr = s.cpsr) :
    StoreFrame (seen s rs) stored s (advance u) where
  regs p hp hr := (readPhys_advance u p hp).trans (h.regs p hp hr)
  cpsr := hc
  spsrs k hk := (readSpsr_advance u k).trans (h.spsrs k hk)
  mem := h.mem
  host := h.host

end Underway

/-! ## A destination register -/

/-- The last register written reads back after the PC advance. -/
theorem readReg_advance_setReg (u : State) {r : Reg} (hr : r ≠ 15) (v : Word) :
    readReg (advance (setReg u r v)) r = v := by
  rw [readReg_advance _ _ hr, readReg_setReg_same]

/-! ## A store that meets no slot already fetched -/

theorem store_of_clear {s : State} {w : Width} {a : Word} (h : storeHitsPipeline s w (alignTo w a) = false) (q : Bool)
    (v : Word) : ∃ x, store s q w a v = .next (noteAccess { s with mem := busWrite s w (alignTo w a) v } x) := by
  obtain ⟨hhit, -⟩ | ⟨-, hnext⟩ := store_cases s q w a v
  · rw [h] at hhit
    cases hhit
  · exact hnext

/-- What was written reads back, cut to the width (20_memory.md R82). -/
theorem memRead_memWrite_same (m : Memory) (w : Width) (a v : Word) : memRead (memWrite m w a v) w a = w.cut v := by
  cases w with
  | byte => exact memRead_memWrite_byte m a v
  | half => exact memRead_memWrite_half m a v
  | word => exact memRead_memWrite_word m a v

theorem stored_of_mem {s t : State} {w : Width} {a v : Word} (h : t.mem = busWrite s w a v) : Stored w a v s t := by
  refine ⟨fun hordinary => ?_, fun hdevice b _ => ?_⟩
  · rw [h, busWrite_ordinary w v hordinary, memRead_memWrite_same]
  · rw [h, busWrite_device w v hdevice]

end Sys2Proof.Machine


/-! MRS, the multiplies and the swaps (42_arm_psr_multiply_swap.md): what is left of each once its checks have passed,
and what it writes. -/

namespace Sys2Proof.Machine

open Sys2Proof Sys2Proof.Claims

/-! ## MRS (42_arm_psr_multiply_swap.md R250) -/

section
variable {c : Cond} {r : Bool} {sbo : BitVec 4} {rd : Reg} {hi lo : BitVec 4} {s : State}

theorem mrs_checks (h : runs (.mrs c r sbo rd hi lo) s = true) :
    (sbo != 15 || hi != 0 || lo != 0) = false ∧ (rd == 15) = false := by
  have checks := checks_of_runs (c := c) h rfl
  simp only [firstDefect_cons_eq_none] at checks
  exact ⟨checks.1, checks.2.1⟩

theorem exec_mrs_cpsr (h : ready (.mrs c false sbo rd hi lo) s [rd] = true) :
    exec (.mrs c false sbo rd hi lo) s = .next (advance (setReg (drew s) rd (cpsrRead s))) := by
  obtain ⟨hr, hb⟩ := ready_iff.1 h
  obtain ⟨hsb, hrd⟩ := mrs_checks hr
  change moveFromPsr c false sbo rd hi lo s = _
  rw [moveFromPsr, whenCond_of_runs hr rfl, hsb, hrd, hb]
  rfl

theorem exec_mrs_spsr_of_some (h : ready (.mrs c true sbo rd hi lo) s [rd] = true) {n : SpsrName}
    (hn : s.cpsr.mode.spsr = some n) :
    exec (.mrs c true sbo rd hi lo) s = .next (advance (setReg s rd (readSpsr s n))) := by
  obtain ⟨hr, hb⟩ := ready_iff.1 h
  obtain ⟨hsb, hrd⟩ := mrs_checks hr
  change moveFromPsr c true sbo rd hi lo s = _
  rw [moveFromPsr, whenCond_of_runs hr rfl, hsb, hrd, hb]
  simp [hn]

end

/-- Settles O21: it holds; Rd is the one register written, and the bits that the read of CPSR draws are the free
ones. -/
theorem mrsResults : Obligations.MrsResults := by
  intro c r sbo rd hi lo s hready
  have hrd : rd ≠ 15 := beq_eq_false_iff_ne.1 (mrs_checks (ready_iff.1 hready).1).2
  have hmem : rd ∈ [rd] := List.mem_singleton_self rd
  refine ⟨?_, ?_⟩
  · rintro rfl
    have after : Underway [rd] (fun _ => False) s _ := (Underway.drew s).trans (.setReg hmem hrd (cpsrRead s))
    exact ⟨_, _, exec_mrs_cpsr hready, readReg_advance_setReg _ hrd _, after.advanced, after.frame (by simp)⟩
  · rintro rfl n hn
    have after : Underway [rd] (fun _ => False) s _ := .setReg hmem hrd (readSpsr s n)
    exact ⟨_, exec_mrs_spsr_of_some hready hn, readReg_advance_setReg _ hrd _, after.advanced,
      after.frame (by simp)⟩

/-! ## The value of a multiply (42_arm_psr_multiply_swap.md R254 to R259) -/

theorem product_eq_value (sf : Bool) (rd rn rs rm : Reg) (s : State) :
    product false rn rs rm s = MulForm.value ⟨sf, rd, rs, rm, none⟩ s
      ∧ product true rn rs rm s = MulForm.value ⟨sf, rd, rs, rm, some rn⟩ s := by
  simp only [product, MulForm.value, BitVec.ofNat_add, BitVec.ofNat_mul, BitVec.ofNat_toNat, BitVec.setWidth_eq]
  exact ⟨rfl, rfl⟩

/-- The widened operand is the integer the operand stands for. -/
theorem widen_eq_operand (f : LongForm) (v : Word) : widen f.signed v = BitVec.ofInt 64 (f.operand v) := by
  unfold widen LongForm.operand
  split
  · rfl
  · rw [BitVec.ofInt_natCast, BitVec.ofNat_toNat]

/-- The two accumulator registers joined. -/
theorem append_eq_ofInt (hi lo : Word) : hi ++ lo = BitVec.ofInt 64 (hi.toNat * 2 ^ 32 + lo.toNat) := by
  refine BitVec.eq_of_toNat_eq ?_
  have hsum : (hi.toNat * 2 ^ 32 + lo.toNat : Int) = ((hi.toNat * 2 ^ 32 + lo.toNat : Nat) : Int) := by norm_cast
  have hhi := hi.isLt
  have hlo := lo.isLt
  rw [BitVec.toNat_append, ← Nat.shiftLeft_add_eq_or_of_lt hlo, Nat.shiftLeft_eq, hsum, BitVec.ofInt_natCast,
    BitVec.toNat_ofNat, Nat.mod_eq_of_lt (by omega)]

theorem productLong_eq_value (f : LongForm) (s : State) :
    productLong f.signed f.acc f.rdHi f.rdLo f.rs f.rm s = f.value s := by
  rw [productLong, LongForm.value, BitVec.ofInt_add, BitVec.ofInt_mul, widen_eq_operand, widen_eq_operand]
  congr 1
  split
  · exact append_eq_ofInt _ _
  · rfl

/-! ## The flags of a multiply (42_arm_psr_multiply_swap.md R253) -/

theorem mulFlags_eq (p : Psr) (r : Word) (d : Bool) :
    mulFlags p r d = { p with n := r.getLsbD 31, z := decide (r = 0), c := d } := by
  rw [mulFlags, BitVec.msb_eq_getLsbD_last, beq_eq_decide]

theorem mulLongFlags_eq (p : Psr) (r : BitVec 64) (d e : Bool) :
    mulLongFlags p r d e = { p with n := r.getLsbD 63, z := decide (r = 0), c := d, v := e } := by
  rw [mulLongFlags, BitVec.msb_eq_getLsbD_last, beq_eq_decide]

/-! ## MUL and MLA -/

/-- MUL and MLA before they write Rd: the cycles and, with S, the flags. -/
def mulFlagged (f : MulForm) (s : State) : State :=
  let s1 := charge s (multiplyCycles true (readReg s f.rs) + f.rn.isSome.toNat)
  if f.sf then { drew s1 with cpsr := mulFlags s.cpsr (f.value s) (drawnBit s) } else s1

theorem underway_mulFlagged (f : MulForm) (s : State) {rs : List Reg} {stored : Word → Prop} :
    Underway rs stored s (mulFlagged f s) := by
  unfold mulFlagged
  dsimp only
  split
  · exact ((Underway.charge s _).trans (.drew _)).trans (.setCpsr rfl rfl)
  · exact .charge s _

theorem mulFlagged_cpsr (f : MulForm) (s : State) : (mulFlagged f s).cpsr = if f.sf then
    { s.cpsr with n := (f.value s).getLsbD 31, z := decide (f.value s = 0), c := (mulFlagged f s).cpsr.c }
    else s.cpsr := by
  unfold mulFlagged
  dsimp only
  split
  · rw [mulFlags_eq]
  · rfl

/-- A 32-bit multiply, once it runs without meeting the hazard. -/
theorem exec_mulForm_of_ready {i : Instr} {f : MulForm} {s : State} (h : mulForm i = some f)
    (hready : ready i s f.regs = true) :
    f.rd ≠ 15 ∧ exec i s = .next (advance (setReg (mulFlagged f s) f.rd (f.value s))) := by
  obtain ⟨hr, hb⟩ := ready_iff.1 hready
  cases i with
  | mul c sf rd rn rs rm =>
    cases h
    have checks := checks_of_runs (c := c) hr rfl
    simp only [firstDefect_cons_eq_none] at checks
    obtain ⟨hsbz, hpc, hover, -⟩ := checks
    refine ⟨fun (hrd : rd = 15) => by simp [hrd] at hpc, ?_⟩
    change multiply false c sf rd rn rs rm s = _
    rw [multiply, whenCond_of_runs hr rfl, Bool.not_false, Bool.true_and, hsbz, Bool.false_and, Bool.or_false, hpc,
      hover, (product_eq_value sf rd rn rs rm s).1]
    exact congrArg (faultIf · .userBankHazard _) hb
  | mla c sf rd rn rs rm =>
    cases h
    have checks := checks_of_runs (c := c) hr rfl
    simp only [firstDefect_cons_eq_none] at checks
    obtain ⟨hpc, hover, -⟩ := checks
    refine ⟨fun (hrd : rd = 15) => by simp [hrd] at hpc, ?_⟩
    change multiply true c sf rd rn rs rm s = _
    rw [multiply, whenCond_of_runs hr rfl, Bool.not_true, Bool.false_and, Bool.true_and, hpc, hover,
      (product_eq_value sf rd rn rs rm s).2]
    exact congrArg (faultIf · .userBankHazard _) hb
  | _ => cases h

/-- Settles O26: it holds; the product is that of the integers modulo 2^32, and C is the bit drawn. -/
theorem mulResults : Obligations.MulResults := by
  intro i f s hf hready
  obtain ⟨hrd, hexec⟩ := exec_mulForm_of_ready hf hready
  have after : Underway [f.rd] (fun _ => False) s _ :=
    (underway_mulFlagged f s).trans (.setReg (List.mem_singleton_self f.rd) hrd (f.value s))
  refine ⟨_, hexec, readReg_advance_setReg _ hrd _, ?_, after.advanced, after.flagFrame⟩
  rw [advance_cpsr, setReg_cpsr]
  exact mulFlagged_cpsr f s

/-! ## The long multiplies -/

/-- A long multiply before it writes its registers: the cycles and, with S, the flags. -/
def longFlagged (f : LongForm) (s : State) : State :=
  let s1 := charge s (multiplyCycles f.signed (readReg s f.rs) + 1 + f.acc.toNat)
  if f.sf then
    { drew (drew s1) with cpsr := mulLongFlags s.cpsr (f.value s) (drawnBit s) (drawnBit (drew s)) }
  else s1

theorem underway_longFlagged (f : LongForm) (s : State) {rs : List Reg} {stored : Word → Prop} :
    Underway rs stored s (longFlagged f s) := by
  unfold longFlagged
  dsimp only
  split
  · exact (((Underway.charge s _).trans (.drew _)).trans (.drew _)).trans (.setCpsr rfl rfl)
  · exact .charge s _

theorem longFlagged_cpsr (f : LongForm) (s : State) : (longFlagged f s).cpsr = if f.sf then
    { s.cpsr with n := (f.value s).getLsbD 63, z := decide (f.value s = 0),
                  c := (longFlagged f s).cpsr.c, v := (longFlagged f s).cpsr.v }
    else s.cpsr := by
  unfold longFlagged
  dsimp only
  split
  · rw [mulLongFlags_eq]
  · rfl

theorem exec_longForm {i : Instr} {f : LongForm} (h : longForm i = some f) (s : State) :
    ∃ c, condOf i = some c ∧ i.defect = longDefect c f.rdHi f.rdLo f.rs f.rm
      ∧ exec i s = multiplyLong f.signed f.acc c f.sf f.rdHi f.rdLo f.rs f.rm s := by
  cases i with
  | umull | umlal | smull | smlal => cases h; exact ⟨_, rfl, rfl, rfl⟩
  | _ => cases h

/-- A long multiply, once it runs without meeting the hazard. -/
theorem exec_longForm_of_ready {i : Instr} {f : LongForm} {s : State} (h : longForm i = some f)
    (hready : ready i s f.regs = true) :
    (f.rdHi ≠ 15 ∧ f.rdLo ≠ 15 ∧ f.rdLo ≠ f.rdHi)
      ∧ exec i s = .next (advance (setReg
        (setReg (longFlagged f s) f.rdLo ((f.value s).extractLsb' 0 32)) f.rdHi ((f.value s).extractLsb' 32 32))) := by
  obtain ⟨hr, hb⟩ := ready_iff.1 hready
  obtain ⟨c, hc, hd, hexec⟩ := exec_longForm h s
  have checks := checks_of_runs hr hd
  simp only [firstDefect_cons_eq_none] at checks
  obtain ⟨hpc, hover, -⟩ := checks
  constructor
  · simp only [Bool.or_eq_false_iff, beq_eq_false_iff_ne] at hpc hover
    obtain ⟨⟨⟨hhi, hlo⟩, -⟩, -⟩ := hpc
    exact ⟨hhi, hlo, hover.2.symm⟩
  · rw [LongForm.regs] at hb
    rw [hexec, multiplyLong, whenCond_of_runs hr hc, hpc, hover, hb, productLong_eq_value]
    rfl

/-- Settles O27: it holds; the product is that of the integers modulo 2^64, and C and V are the bits drawn. -/
theorem longMulResults : Obligations.LongMulResults := by
  intro i f s hf hready
  obtain ⟨⟨hhi, hlo, hne⟩, hexec⟩ := exec_longForm_of_ready hf hready
  have after : Underway [f.rdLo, f.rdHi] (fun _ => False) s _ :=
    ((underway_longFlagged f s).trans (.setReg (by simp) hlo ((f.value s).extractLsb' 0 32))).trans
      (.setReg (by simp) hhi ((f.value s).extractLsb' 32 32))
  refine ⟨_, hexec, ?_, readReg_advance_setReg _ hhi _, ?_, after.advanced, after.flagFrame⟩
  · rw [readReg_advance _ _ hlo, readReg_setReg_ne _ _ _ _ hne, readReg_setReg_same]
  · rw [advance_cpsr, setReg_cpsr, setReg_cpsr]
    exact longFlagged_cpsr f s

/-! ## SWP and SWPB (42_arm_psr_multiply_swap.md R260, R261) -/

theorem swap_rd_ne_pc {i : Instr} {f : SwapForm} {s : State} (h : swapForm i = some f) (hr : runs i s = true) :
    f.rd ≠ 15 := by
  cases i with
  | swp c | swpb c =>
    cases h
    have checks := checks_of_runs (c := c) hr rfl
    simp only [firstDefect_cons_eq_none, Bool.or_eq_false_iff, beq_eq_false_iff_ne] at checks
    obtain ⟨-, ⟨⟨hrd, -⟩, -⟩, -⟩ := checks
    exact hrd
  | _ => cases h

/-- Settles O28: it holds; the value loaded is read before the store, and the load before it leaves memory. -/
theorem swapResults : Obligations.SwapResults := by
  intro i f s hf hready hclear
  obtain ⟨hr, hb⟩ := ready_iff.1 hready
  have hrd := swap_rd_ne_pc hf hr
  have loaded : Underway [f.rd] (InAccess f.width (alignTo f.width (readReg s f.rn))) s
      (noteLoad (charge s 1) false f.kind (readReg s f.rn)) := (Underway.charge s 1).trans (.noteLoad ..)
  obtain ⟨x, hstore⟩ :=
    store_of_clear ((storeHitsPipeline_congr loaded.pc.pc rfl ..).trans hclear) false (readReg s f.rm)
  rw [exec_swapForm hf hr, hb, faultIf_false, swapOf, hstore, andThen_next]
  have after := ((loaded.trans (.busWrite (fun _ => id) (readReg s f.rm))).trans (.noteAccess _ x)).trans
    (.setReg (List.mem_singleton_self _) hrd (loadValue s f.kind (readReg s f.rn)))
  refine ⟨_, rfl, readReg_advance_setReg _ hrd _, stored_of_mem ?_, after.advanced, after.storeFrame (by simp)⟩
  rw [advance_mem, setReg_mem]
  rfl

end Sys2Proof.Machine


/-! The addressing modes and the single transfers (43_arm_load_store.md R290 to R304, 46_thumb_load_store.md R420 to
R437): what is left of a load once its checks have passed, and what loads and stores write. -/

namespace Sys2Proof.Machine

open Sys2Proof Sys2Proof.Claims

/-! ## Register lists (43_arm_load_store.md R305, R311) -/

theorem mem_listedRegs (list : BitVec 16) (r : Reg) : r ∈ listedRegs list ↔ list.getLsbD r.toNat = true := by
  simp only [listedRegs, List.mem_map, List.mem_filter, List.mem_range]
  constructor
  · rintro ⟨k, ⟨hk, hbit⟩, rfl⟩
    rwa [BitVec.toNat_ofNat, Nat.mod_eq_of_lt hk]
  · exact fun hbit => ⟨r.toNat, ⟨r.isLt, hbit⟩, by rw [BitVec.ofNat_toNat, BitVec.setWidth_eq]⟩

/-- The registers of a list are among the sixteen in ascending order. -/
theorem listedRegs_sublist (list : BitVec 16) : (listedRegs list).Sublist ((List.range 16).map (BitVec.ofNat 4)) :=
  List.filter_sublist.map _

theorem listedRegs_ascending (list : BitVec 16) : (listedRegs list).Pairwise (fun a b => a.toNat < b.toNat) :=
  List.Pairwise.sublist (listedRegs_sublist list) (by decide)

theorem listedRegs_length (list : BitVec 16) :
    (listedRegs list).length = (List.range 16).countP fun i => list.getLsbD i := by
  rw [listedRegs, List.length_map, List.countP_eq_length_filter]

theorem transferredRegs_length_le (list : BitVec 16) : (transferredRegs list).length ≤ 16 := by
  unfold transferredRegs
  split
  · decide
  · exact (listedRegs_sublist list).length_le

/-- Settles O33: it holds; a list is the sublist of the sixteen registers whose bits are set. -/
theorem registerLists : Obligations.RegisterLists := by
  refine fun list => ⟨mem_listedRegs list, listedRegs_ascending list, fun hlist => ?_, fun hlist => ?_⟩
  · simp only [transferredRegs, transferBytes, transferCount, if_neg hlist, and_self]
  · subst hlist
    exact ⟨rfl, rfl⟩

/-! ## Addressing (43_arm_load_store.md R290, R300, R305) -/

theorem writeback_iff (p u w : Bool) : Indexing.writeback ⟨p, u, w⟩ = true ↔ p = false ∨ w = true := by
  cases p <;> simp [Indexing.writeback]

theorem transferCount_eq_countP (list : BitVec 16) :
    transferCount list = if list = 0 then 16 else (List.range 16).countP fun i => list.getLsbD i := by
  rw [transferCount, listedRegs_length]

/-- Settles O59: it holds; each form is its definition, the number of words being that of the bits set. -/
theorem addressingModes : Obligations.AddressingModes := by
  refine ⟨fun s rn o p u w => ⟨rfl, rfl, writeback_iff p u w⟩, fun s v amt k rm => ⟨rfl, rfl, rfl⟩,
    fun base list => ?_⟩
  dsimp only
  rw [← transferCount_eq_countP]
  exact ⟨rfl, rfl, rfl, rfl, rfl, rfl⟩

/-! ## The written-back base -/

section
variable (base : Option (Reg × Word)) (u : State)

@[simp] theorem baseWritten_cpsr : (baseWritten base u).cpsr = u.cpsr := by
  cases base with
  | none => rfl
  | some b => exact setReg_cpsr ..

@[simp] theorem baseWritten_mem : (baseWritten base u).mem = u.mem := by
  cases base with
  | none => rfl
  | some b => exact setReg_mem ..

theorem readReg_baseWritten {b : Reg × Word} (h : base = some b) : readReg (baseWritten base u) b.1 = b.2 := by
  rw [h]
  exact readReg_setReg_same ..

end

namespace Underway

variable {rs : List Reg} {stored : Word → Prop} {s u : State}

theorem refl (s : State) : Underway rs stored s s :=
  ⟨fun _ _ _ => rfl, fun _ _ => rfl, fun _ _ => rfl, Keeps.sameHost_refl s, .refl s, rfl, rfl⟩

/-- The write-back of a base that is not R15. -/
theorem baseWritten {base : Option (Reg × Word)} (hrs : ∀ b, base = some b → b.1 ∈ rs)
    (hpc : ∀ b, base = some b → b.1 ≠ 15) (s : State) : Underway rs stored s (baseWritten base s) := by
  cases base with
  | none => exact .refl s
  | some b => exact .setReg (hrs b rfl) (hpc b rfl) b.2

/-- What was left as it was before an end other than the PC advance. -/
theorem toFlagFrame (h : Underway rs (fun _ => False) s u) : FlagFrame (seen s rs) s u :=
  ⟨h.regs, h.spsrs, fun a => h.mem a id, h.host⟩

end Underway

theorem mem_baseRegs {base : Option (Reg × Word)} {b : Reg × Word} (h : base = some b) : b.1 ∈ baseRegs base := by
  rw [h]
  exact List.mem_singleton_self _

/-- A base that a transfer writes back is not R15. -/
theorem base_ne_pc_of_checked {s : State} {x : Indexing} {rn : Reg} {o : Offset}
    (h : (x.writeback && rn == 15) = false) (b : Reg × Word)
    (hb : (if x.writeback then some (rn, offsetAddr s x rn o) else none) = some b) : b.1 ≠ 15 := by
  split at hb
  · next hw =>
    cases hb
    rw [hw, Bool.true_and] at h
    exact beq_eq_false_iff_ne.1 h
  · cases hb

section
variable {i : Instr} {s : State} {c : Cond} {x : Indexing} {rn rd : Reg} {o : Offset}

theorem armLoad_base_of_wordByte {byte : Bool} {k : LoadKind} (hr : runs i s = true)
    (hd : i.defect = wordByteDefect c byte x.writeback rn rd o.regs.head?) (b : Reg × Word)
    (hb : (armLoad s k x rn rd o).base = some b) : b.1 ≠ 15 :=
  base_ne_pc_of_checked (EndsAll.base_ne_pc_of_wordByte (wordByteRestricted_of_runs hr hd)) b hb

theorem armLoad_base_of_halfword {sbz : BitVec 4} {k : LoadKind} (hr : runs i s = true)
    (hd : i.defect = halfwordDefect c x.p x.w rn rd sbz o.regs.head?) (b : Reg × Word)
    (hb : (armLoad s k x rn rd o).base = some b) : b.1 ≠ 15 :=
  base_ne_pc_of_checked (EndsAll.base_ne_pc_of_halfword (halfwordRestricted_of_runs hr hd).2) b hb

theorem armStore_base_of_wordByte {byte : Bool} {w : Width} (hr : runs i s = true)
    (hd : i.defect = wordByteDefect c byte x.writeback rn rd o.regs.head?) (b : Reg × Word)
    (hb : (armStore s w x rn rd o).base = some b) : b.1 ≠ 15 :=
  armLoad_base_of_wordByte (k := .word) hr hd b hb

theorem armStore_base_of_halfword {sbz : BitVec 4} {w : Width} (hr : runs i s = true)
    (hd : i.defect = halfwordDefect c x.p x.w rn rd sbz o.regs.head?) (b : Reg × Word)
    (hb : (armStore s w x rn rd o).base = some b) : b.1 ≠ 15 :=
  armLoad_base_of_halfword (k := .half) hr hd b hb

end

/-! ## Single loads -/

/-- A single load before it writes its destination: the access and the write-back of the base. -/
def baseLoaded (f : LoadForm) (s : State) : State :=
  baseWritten f.base (noteLoad (charge s 1) false f.kind f.addr)

/-- A single load with its operands computed: the loaded value goes to R15 or to a register, before the PC advance. -/
def loadOf (f : LoadForm) (s : State) : Result :=
  if f.rd = 15 then .next (writePc (baseLoaded f s) (loadValue s f.kind f.addr))
  else .next (advance (setReg (baseLoaded f s) f.rd (loadValue s f.kind f.addr)))

theorem loadTransfer_eq_loadOf (k : LoadKind) (x : Indexing) (rn rd : Reg) (o : Offset) (s : State) :
    loadTransfer k x rn rd o s = loadOf (armLoad s k x rn rd o) s := by
  unfold loadTransfer
  simp only [writeBase_eq_baseWritten]
  rfl

theorem thumbLoad_eq_loadOf (k : LoadKind) (a : Word) (rd : LowReg) (regs : List Reg) (s : State) :
    thumbLoad k a rd s = loadOf (thumbLoadOf k a rd regs) s := (if_neg (lowReg_ne_pc rd)).symm

section
variable {i : Instr} {s : State} {c : Cond} {x : Indexing} {rn rd : Reg} {o : Offset}

theorem loadWordByte_of_runs {byte : Bool} (hr : runs i s = true) (hc : condOf i = some c)
    (hd : i.defect = wordByteDefect c byte x.writeback rn rd o.regs.head?) :
    loadWordByte byte c x rn rd o s = faultIf (bankHazard s (rn :: rd :: o.regs)) .userBankHazard
      (loadOf (armLoad s (if byte then .byte else .word) x rn rd o) s) := by
  rw [loadWordByte, whenCond_of_runs hr hc, wordByteRestricted_of_runs hr hd, faultIf_false, loadTransfer_eq_loadOf]

theorem loadHalfword_of_runs {k : LoadKind} {sbz : BitVec 4} (hr : runs i s = true) (hc : condOf i = some c)
    (hd : i.defect = halfwordDefect c x.p x.w rn rd sbz o.regs.head?) :
    loadHalfword k c x rn rd sbz o s = faultIf (bankHazard s (rn :: rd :: o.regs)) .userBankHazard
      (loadOf (armLoad s k x rn rd o) s) := by
  obtain ⟨hsbz, hres⟩ := halfwordRestricted_of_runs hr hd
  rw [loadHalfword, whenCond_of_runs hr hc, hsbz, hres, faultIf_false, faultIf_false, loadTransfer_eq_loadOf]

end

/-- A single load that runs. -/
theorem exec_loadForm {i : Instr} {f : LoadForm} {s : State} (h : loadForm i s = some f) (hr : runs i s = true) :
    exec i s = faultIf (bankHazard s f.regs) .userBankHazard (loadOf f s) := by
  cases i with
  | ldrImmPost | ldrtImm | ldrbImmPost | ldrbtImm | ldrImmPre | ldrbImmPre
  | ldrRegPost | ldrtReg | ldrbRegPost | ldrbtReg | ldrRegPre | ldrbRegPre =>
    cases h; exact loadWordByte_of_runs hr rfl rfl
  | ldrhReg | ldrhImm | ldrsbReg | ldrsbImm | ldrshReg | ldrshImm => cases h; exact loadHalfword_of_runs hr rfl rfl
  | tLdrSp =>
    cases h
    rw [← thumbLoad_eq_loadOf]
    rfl
  | tLdrPc | tLdrReg | tLdrbReg | tLdrhReg | tLdrsbReg | tLdrshReg | tLdrImm | tLdrbImm | tLdrhImm =>
    cases h
    rw [← thumbLoad_eq_loadOf, thumbLoadOf, bankHazard_nil]
    rfl
  | _ => cases h

theorem loadForm_base_ne_pc {i : Instr} {f : LoadForm} {s : State} (h : loadForm i s = some f)
    (hr : runs i s = true) : ∀ b, f.base = some b → b.1 ≠ 15 := by
  cases i with
  | ldrImmPost | ldrtImm | ldrbImmPost | ldrbtImm | ldrImmPre | ldrbImmPre
  | ldrRegPost | ldrtReg | ldrbRegPost | ldrbtReg | ldrRegPre | ldrbRegPre =>
    cases h; exact armLoad_base_of_wordByte hr rfl
  | ldrhReg | ldrhImm | ldrsbReg | ldrsbImm | ldrshReg | ldrshImm =>
    cases h; exact armLoad_base_of_halfword hr rfl
  | tLdrPc | tLdrReg | tLdrbReg | tLdrhReg | tLdrsbReg | tLdrshReg | tLdrImm | tLdrbImm | tLdrhImm | tLdrSp =>
    cases h; exact fun _ hb => nomatch hb
  | _ => cases h

/-- Settles O29: it holds; the base is written back before the destination, so the loaded value wins. -/
theorem loadResults : Obligations.LoadResults := by
  intro i f s hf hready
  obtain ⟨hr, hb⟩ := ready_iff.1 hready
  have hbase := loadForm_base_ne_pc hf hr
  have loaded : Underway (f.rd :: baseRegs f.base) (fun _ => False) s (baseLoaded f s) :=
    ((Underway.charge s 1).trans (.noteLoad ..)).trans
      (.baseWritten (fun _ hb => List.mem_cons_of_mem _ (mem_baseRegs hb)) hbase _)
  have hcpsr : (baseLoaded f s).cpsr = s.cpsr := baseWritten_cpsr ..
  rw [exec_loadForm hf hr, hb, faultIf_false, loadOf]
  by_cases hrd : f.rd = 15
  · rw [if_pos hrd, ← hcpsr]
    refine ⟨_, rfl, fun hne => absurd hrd hne, fun _ => jumped_writePc _ _, fun b hb _ => ?_,
      (loaded.toFlagFrame.trans (.writePc _ _)).withCpsr hcpsr⟩
    rw [readReg_writePc _ _ _ (hbase b hb)]
    exact readReg_baseWritten _ _ hb
  · rw [if_neg hrd]
    have after := loaded.trans (.setReg List.mem_cons_self hrd (loadValue s f.kind f.addr))
    refine ⟨_, rfl, fun _ => ⟨readReg_advance_setReg _ hrd _, after.advanced⟩, fun he => absurd he hrd,
      fun b hb hne => ?_, after.frame ((setReg_cpsr ..).trans hcpsr)⟩
    rw [readReg_advance _ _ (hbase b hb), readReg_setReg_ne _ _ _ _ hne]
    exact readReg_baseWritten _ _ hb

/-! ## Single stores -/

theorem storeForm_base_ne_pc {i : Instr} {f : StoreForm} {s : State} (h : storeForm i s = some f)
    (hr : runs i s = true) : ∀ b, f.base = some b → b.1 ≠ 15 := by
  cases i with
  | strImmPost | strtImm | strbImmPost | strbtImm | strImmPre | strbImmPre
  | strRegPost | strtReg | strbRegPost | strbtReg | strRegPre | strbRegPre =>
    cases h; exact armStore_base_of_wordByte hr rfl
  | strhReg | strhImm =>
    cases h; exact armStore_base_of_halfword hr rfl
  | tStrReg | tStrbReg | tStrhReg | tStrImm | tStrbImm | tStrhImm | tStrSp => cases h; exact fun _ hb => nomatch hb
  | _ => cases h

/-- Settles O30: it holds; the value stored is read before the base is written back. -/
theorem storeResults : Obligations.StoreResults := by
  intro i f s hf hready hclear
  obtain ⟨hr, hb⟩ := ready_iff.1 hready
  have hbase := storeForm_base_ne_pc hf hr
  obtain ⟨x, hstore⟩ := store_of_clear hclear false f.value
  rw [exec_storeForm hf hr, hb, faultIf_false, storeOf, hstore, andThen_next]
  have written : Underway (baseRegs f.base) (InAccess f.width (alignTo f.width f.addr)) s
      (noteAccess { s with mem := busWrite s f.width (alignTo f.width f.addr) f.value } x) :=
    (Underway.busWrite (fun _ => id) f.value).trans (.noteAccess _ x)
  have after := written.trans (.baseWritten (fun _ => mem_baseRegs) hbase _)
  refine ⟨_, rfl, stored_of_mem (baseWritten_mem ..), fun b hb => ?_, after.advanced,
    after.storeFrame (baseWritten_cpsr ..)⟩
  rw [readReg_advance _ _ (hbase b hb)]
  exact readReg_baseWritten _ _ hb

end Sys2Proof.Machine


/-! The block transfers (43_arm_load_store.md R305 to R311, 46_thumb_load_store.md R442 to R446): what is left of each
once its checks have passed, and what it writes. -/

namespace Sys2Proof.Machine

open Sys2Proof

@[simp] theorem readPhys_setHazard (s : State) (b : Bool) (p : PhysReg) :
    readPhys { s with userBankHazard := b } p = readPhys s p := by cases p <;> rfl

end Sys2Proof.Machine

namespace Sys2Proof.Claims

open Sys2Proof Sys2Proof.Machine

namespace FlagFrame

variable {changed changed' : List PhysReg} {s t : State}

theorem mono (h : FlagFrame changed s t) (hsub : ∀ p ∈ changed, p ∈ changed') : FlagFrame changed' s t :=
  ⟨fun p hp hc => h.regs p hp fun hm => hc (hsub p hm), h.spsrs, h.mem, h.host⟩

theorem setUsrRegs (s : State) {l : List (Reg × Word)} (h : ∀ x ∈ l, bank .user x.1 ∈ changed) :
    FlagFrame changed s (setUsrRegs s l) :=
  ⟨fun p _ hp => readPhys_setUsrRegs_of_not_mem s l p fun x hx e => hp (e ▸ h x hx),
    fun n _ => by cases n <;> simp [readSpsr], fun _ => by rw [setUsrRegs_mem], (Keeps.setUsrRegs s l).host⟩

theorem setHazard (s : State) (b : Bool) : FlagFrame changed s { s with userBankHazard := b } :=
  ⟨fun p _ _ => readPhys_setHazard s b p, fun n _ => by cases n <;> rfl, fun _ => rfl, Keeps.sameHost_refl s⟩

end FlagFrame

end Sys2Proof.Claims

namespace Sys2Proof.Machine

open Sys2Proof Sys2Proof.Claims

/-! ## Operations under way -/

namespace Underway

variable {rs : List Reg} {stored : Word → Prop} {s u : State}

theorem noteBlockLoads (s : State) (q : Bool) (a : Word) (regs : List Reg) :
    Underway rs stored s (noteBlockLoads s q a regs) := by
  induction regs generalizing s q a with
  | nil => exact .refl s
  | cons r rest ih => exact (Underway.noteLoad ..).trans (ih ..)

theorem setRegs (s : State) {l : List (Reg × Word)} (h : ∀ x ∈ l, x.1 ∈ rs) : Underway rs stored s (setRegs s l) := by
  induction l generalizing s with
  | nil => exact .refl s
  | cons x rest ih =>
    refine Underway.trans ?_ (ih _ fun y hy => h y (List.mem_cons_of_mem _ hy))
    split
    · exact .refl s
    · next hpc => exact .setReg (h x List.mem_cons_self) hpc x.2

/-- A register that is not among those written. -/
theorem readReg (h : Underway rs stored s u) {r : Reg} (hr : r ∉ rs) (hpc : r ≠ 15) : readReg u r = readReg s r := by
  rw [Machine.readReg, h.mode]
  refine h.regs _ (fun e => hpc ((bank_eq_pc_iff ..).1 e)) fun hm => ?_
  obtain ⟨q, hq, e⟩ := List.mem_map.1 hm
  rw [bank_injective] at e
  exact hr (e ▸ hq)

end Underway

/-! ## The list of a block transfer -/

theorem ldm_base_ne_pc {c : Cond} {p u sf w : Bool} {rn : Reg} {list : BitVec 16} {s : State}
    (hr : runs (.ldm c p u sf w rn list) s = true) : rn ≠ 15 :=
  beq_eq_false_iff_ne.1 ((firstDefect_cons_eq_none ..).1 (checks_of_runs (c := c) hr rfl)).1

theorem stm_base_ne_pc {c : Cond} {p u sf w : Bool} {rn : Reg} {list : BitVec 16} {s : State}
    (hr : runs (.stm c p u sf w rn list) s = true) : rn ≠ 15 :=
  beq_eq_false_iff_ne.1 ((firstDefect_cons_eq_none ..).1 (checks_of_runs (c := c) hr rfl)).1

theorem blockLoadForm_list {i : Instr} {f : BlockForm} {s : State} (h : blockLoadForm i s = some f)
    (hr : runs i s = true) : f.rn ≠ 15 ∧ ∃ list, f.regs = transferredRegs list := by
  cases i with
  | ldm c p u sf w rn list =>
    cases sf with
    | true => cases h
    | false => cases h; exact ⟨ldm_base_ne_pc hr, list, rfl⟩
  | tPop => cases h; exact ⟨(by decide : (13 : Reg) ≠ 15), _, rfl⟩
  | tLdmia rb => cases h; exact ⟨lowReg_ne_pc rb, _, rfl⟩
  | _ => cases h

theorem blockStoreForm_list {i : Instr} {f : BlockForm} {s : State} (h : blockStoreForm i s = some f)
    (hr : runs i s = true) : f.rn ≠ 15 ∧ ∃ list, f.regs = transferredRegs list := by
  cases i with
  | stm c p u sf w rn list =>
    cases sf with
    | true => cases h
    | false => cases h; exact ⟨stm_base_ne_pc hr, list, rfl⟩
  | tPush => cases h; exact ⟨(by decide : (13 : Reg) ≠ 15), _, rfl⟩
  | tStmia rb => cases h; exact ⟨lowReg_ne_pc rb, _, rfl⟩
  | _ => cases h

/-! ## The words of a block load -/

/-- The words a block load reads, by place: the debit before them changes no answer. -/
theorem blockValues_charge_getElem? (f : BlockForm) (s : State) (n k : Nat) :
    (blockValues (charge s n) false f.start f.regs)[k]? = f.regs[k]?.map fun r => (r, f.wordRead s k) := by
  rw [blockValues_getElem?, noteBlockLoads_charge]
  rfl

theorem mem_blockValues {f : BlockForm} {k : Nat} {r : Reg} (h : f.regs[k]? = some r) (s : State) (n : Nat) :
    (r, f.wordRead s k) ∈ blockValues (charge s n) false f.start f.regs := by
  refine List.mem_of_getElem? (i := k) ?_
  rw [blockValues_charge_getElem?, h]
  rfl

theorem reg_mem_of_mem_blockValues {s : State} {q : Bool} {a : Word} {regs : List Reg} {x : Reg × Word}
    (h : x ∈ blockValues s q a regs) : x.1 ∈ regs := by
  rw [← blockValues_map_fst s q a regs]
  exact List.mem_map_of_mem h

/-- Among different keys an entry is the one found. -/
theorem lookup_of_mem {l : List (Reg × Word)} (hl : (l.map Prod.fst).Nodup) {r : Reg} {v : Word} (h : (r, v) ∈ l) :
    l.lookup r = some v := by
  obtain ⟨front, back, rfl⟩ := List.append_of_mem h
  refine List.lookup_eq_some_iff.2 ⟨front, back, rfl, fun x hx => bne_iff_ne.2 fun e => ?_⟩
  rw [List.map_append, List.nodup_append] at hl
  exact hl.2.2 x.1 (List.mem_map_of_mem hx) r (by simp) e.symm

theorem loadedPc_of_getElem? {f : BlockForm} {k : Nat} (h : f.regs[k]? = some 15) (hd : f.regs.Nodup) (s : State)
    (n : Nat) : loadedPc (charge s n) f.start f.regs = some (f.wordRead s k) :=
  lookup_of_mem (by rwa [blockValues_map_fst]) (mem_blockValues h s n)

theorem loadedPc_eq_none {regs : List Reg} (h : 15 ∉ regs) (s : State) (start : Word) :
    loadedPc s start regs = none :=
  List.lookup_eq_none_iff.2 fun _ hx => bne_iff_ne.2 fun e => h (e ▸ reg_mem_of_mem_blockValues hx)

/-! ## A block load before R15 is written -/

/-- The state of a block load before R15 is written. -/
def formLoaded (f : BlockForm) (s : State) : State := blockLoaded s f.w f.rn f.start f.newBase f.regs

section
variable {f : BlockForm} (s : State)

/-- The accesses before the registers are written. -/
theorem underway_blockLoads {rs : List Reg} {stored : Word → Prop} :
    Underway rs stored s (noteBlockLoads (charge s 1) false f.start f.regs) :=
  (Underway.charge s 1).trans (.noteBlockLoads ..)

@[simp] theorem formLoaded_cpsr : (formLoaded f s).cpsr = s.cpsr := by
  rw [formLoaded, blockLoaded, setRegs_cpsr]
  split <;> simp

theorem underway_formLoaded {stored : Word → Prop} (hrn : f.rn ≠ 15) :
    Underway (f.rn :: f.regs) stored s (formLoaded f s) := by
  refine ((underway_blockLoads (f := f) s).trans ?_).trans
    (.setRegs _ fun x hx => List.mem_cons_of_mem _ (reg_mem_of_mem_blockValues hx))
  split
  · exact .setReg List.mem_cons_self hrn f.newBase
  · exact .refl _

theorem readReg_formLoaded_listed (hd : f.regs.Nodup) {k : Nat} {r : Reg} (h : f.regs[k]? = some r) (hr : r ≠ 15) :
    readReg (formLoaded f s) r = f.wordRead s k :=
  readReg_setRegs_of_mem _ _ (by rwa [blockValues_map_fst]) r _ (mem_blockValues h s 1) hr

/-- A base that is not loaded is written back where W says so. -/
theorem readReg_formLoaded_base (hrn : f.rn ≠ 15) (h : f.rn ∉ f.regs) :
    readReg (formLoaded f s) f.rn = if f.w then f.newBase else readReg s f.rn := by
  have registers (u : State) : Underway f.regs (fun _ => False) u
      (setRegs u (blockValues (charge s 1) false f.start f.regs)) :=
    .setRegs u fun _ => reg_mem_of_mem_blockValues
  rw [formLoaded, blockLoaded, (registers _).readReg h hrn]
  cases hw : f.w with
  | false => simp
  | true => simp [h]

end

/-! ## How a block load ends -/

section
variable {f : BlockForm} {k : Nat}

theorem blockLoad_of_no_pc (h : 15 ∉ f.regs) (restore : Bool) (s : State) :
    blockLoad restore s f.w f.rn f.start f.newBase f.regs = .next (advance (formLoaded f s)) := by
  rw [blockLoad, loadedPc_eq_none h]
  rfl

theorem blockLoad_jump (h : f.regs[k]? = some 15) (hd : f.regs.Nodup) (s : State) :
    blockLoad false s f.w f.rn f.start f.newBase f.regs = .next (writePc (formLoaded f s) (f.wordRead s k)) := by
  rw [blockLoad, loadedPc_of_getElem? h hd]
  rfl

theorem blockLoad_return (h : f.regs[k]? = some 15) (hd : f.regs.Nodup) (s : State) :
    blockLoad true s f.w f.rn f.start f.newBase f.regs
      = andThen (restoreCpsr (formLoaded f s)) fun u => .next (writePc u (f.wordRead s k)) := by
  rw [blockLoad, loadedPc_of_getElem? h hd]
  rfl

/-- A register stands at one place of a list. -/
theorem place_unique {r : Reg} {j : Nat} {l : List Reg} (hd : l.Nodup) (hk : l[k]? = some r) (hj : l[j]? = some r) :
    j = k := by
  obtain ⟨hlt, -⟩ := List.getElem?_eq_some_iff.1 hj
  exact (List.getElem?_inj hlt hd).1 (hj.trans hk.symm)

end

/-! ## LDM, POP and LDMIA that run -/

/-- The encoding checks of an LDM that runs have passed, and that of the mode where it holds. -/
theorem exec_ldm_of_runs {c : Cond} {p u sf w : Bool} {rn : Reg} {list : BitVec 16} {s : State}
    (hr : runs (.ldm c p u sf w rn list) s = true) (hmode : sf = true → s.cpsr.mode.spsr ≠ none) :
    exec (.ldm c p u sf w rn list) s =
      if sf && !(transferredRegs list).contains 15 then
        faultIf w .ldmStmUserBank <| faultIf (bankHazard s [rn]) .userBankHazard <|
          blockLoadUser s (blockStart p u (readReg s rn) list) (transferredRegs list)
      else
        faultIf (bankHazard s (rn :: transferredRegs list)) .userBankHazard <|
          blockLoad sf s w rn (blockStart p u (readReg s rn) list) (blockNewBase u (readReg s rn) list)
            (transferredRegs list) := by
  have huser : (sf && s.cpsr.mode.spsr == none) = false := by
    cases sf with
    | false => rfl
    | true => exact beq_eq_false_iff_ne.2 (hmode rfl)
  change loadMultiple c p u sf w rn list s = _
  rw [loadMultiple, whenCond_of_runs hr rfl, beq_eq_false_iff_ne.2 (ldm_base_ne_pc hr), huser]
  rfl

/-- A block load with S = 0 that runs. -/
theorem exec_blockLoadForm {i : Instr} {f : BlockForm} {s : State} (h : blockLoadForm i s = some f)
    (hr : runs i s = true) :
    exec i s = faultIf (bankHazard s (f.rn :: f.regs)) .userBankHazard
      (blockLoad false s f.w f.rn f.start f.newBase f.regs) := by
  cases i with
  | ldm c p u sf w rn list =>
    cases sf with
    | true => cases h
    | false => cases h; exact exec_ldm_of_runs hr (by simp)
  | tPop => cases h; rfl
  | tLdmia rb list =>
    cases h
    simp only [thumbBlock, bankHazard_low s _ (thumbList_low rb list), faultIf_false]
    rfl
  | _ => cases h

/-- Settles O34: it holds; no register is listed twice, so each holds its own word, R15's word being the one jumped
to. -/
theorem blockLoadResults : Obligations.BlockLoadResults := by
  intro i f s hf hready
  obtain ⟨hr, hb⟩ := ready_iff.1 hready
  obtain ⟨hrn, list, hlist⟩ := blockLoadForm_list hf hr
  have hd : f.regs.Nodup := hlist ▸ transferredRegs_nodup list
  have hordinary (k : Nat) (hk : isDevice s.devices (f.wordAddr k) = false) :
      f.wordRead s k = memRead s.mem .word (f.wordAddr k) :=
    busRead_noteBlockLoads_ordinary _ _ _ _ hk
  have loaded : Underway (f.rn :: f.regs) (fun _ => False) s (formLoaded f s) := underway_formLoaded s hrn
  rw [exec_blockLoadForm hf hr, hb, faultIf_false]
  by_cases h15 : 15 ∈ f.regs
  · obtain ⟨k, hk⟩ := List.getElem?_of_mem h15
    rw [blockLoad_jump hk hd, ← formLoaded_cpsr (f := f) s]
    refine ⟨_, rfl, fun j r hj hne => ?_, hordinary, fun hmem => ?_, fun j hj => ?_, fun hno => absurd h15 hno,
      (loaded.toFlagFrame.trans (.writePc _ _)).withCpsr (formLoaded_cpsr s)⟩
    · rw [readReg_writePc _ _ _ hne, readReg_formLoaded_listed s hd hj hne]
    · rw [readReg_writePc _ _ _ hrn, readReg_formLoaded_base s hrn hmem]
    · rw [place_unique hd hk hj]
      exact jumped_writePc ..
  · rw [blockLoad_of_no_pc h15]
    refine ⟨_, rfl, fun j r hj hne => ?_, hordinary, fun hmem => ?_,
      fun j hj => absurd (List.mem_of_getElem? hj) h15, fun _ => loaded.advanced, loaded.frame (formLoaded_cpsr s)⟩
    · rw [readReg_advance _ _ hne, readReg_formLoaded_listed s hd hj hne]
    · rw [readReg_advance _ _ hrn, readReg_formLoaded_base s hrn hmem]

/-! ## LDM with S = 1 (43_arm_load_store.md R308) -/

section
variable {c : Cond} {p u w : Bool} {rn : Reg} {list : BitVec 16} {s : State}

/-- LDM with S = 1 that transfers R15, in a mode with an SPSR. -/
theorem exec_ldm_return (hready : ready (.ldm c p u true w rn list) s (rn :: transferredRegs list) = true)
    (h15 : 15 ∈ transferredRegs list) (hmode : s.cpsr.mode.spsr ≠ none) :
    exec (.ldm c p u true w rn list) s = blockLoad true s w rn (blockStart p u (readReg s rn) list)
      (blockNewBase u (readReg s rn) list) (transferredRegs list) := by
  obtain ⟨hr, hb⟩ := ready_iff.1 hready
  rw [exec_ldm_of_runs hr fun _ => hmode, List.contains_iff_mem.2 h15, hb]
  rfl

/-- LDM with S = 1 and without R15, in a mode with an SPSR and without write-back. -/
theorem exec_ldm_user (hready : ready (.ldm c p u true false rn list) s [rn] = true)
    (h15 : 15 ∉ transferredRegs list) (hmode : s.cpsr.mode.spsr ≠ none) :
    exec (.ldm c p u true false rn list) s
      = blockLoadUser s (blockStart p u (readReg s rn) list) (transferredRegs list) := by
  obtain ⟨hr, hb⟩ := ready_iff.1 hready
  have hcontains : (transferredRegs list).contains 15 = false := by simpa using h15
  rw [exec_ldm_of_runs hr fun _ => hmode, hcontains, hb]
  rfl

end

/-- The state of a block load of the User bank before the PC advance. -/
def userLoaded (f : BlockForm) (s : State) : State :=
  setUsrRegs (noteBlockLoads (charge s 1) false f.start f.regs) (blockValues (charge s 1) false f.start f.regs)

section
variable {f : BlockForm} (s : State)

theorem flagFrame_userLoaded : FlagFrame (f.regs.map (bank .user)) s (userLoaded f s) :=
  ((underway_blockLoads (rs := []) s).toFlagFrame.mono fun _ hp => nomatch hp).trans
    (.setUsrRegs _ fun _ hx => List.mem_map_of_mem (reg_mem_of_mem_blockValues hx))

theorem samePc_userLoaded (h15 : 15 ∉ f.regs) : SamePc s (userLoaded f s) :=
  (underway_blockLoads (rs := []) (stored := fun _ => False) s).pc.trans
    (.setUsrRegs fun _ hx e => h15 (e ▸ reg_mem_of_mem_blockValues hx))

theorem userLoaded_cpsr : (userLoaded f s).cpsr = s.cpsr := by simp [userLoaded]

theorem userLoaded_lastFetch : (userLoaded f s).lastFetch = s.lastFetch := by simp [userLoaded]

theorem readUsrReg_userLoaded (hd : f.regs.Nodup) {k : Nat} {r : Reg} (h : f.regs[k]? = some r) :
    readUsrReg (userLoaded f s) r = f.wordRead s k :=
  readUsrReg_setUsrRegs_of_mem _ _ (by rwa [blockValues_map_fst]) r _ (mem_blockValues h s 1)

end

/-- Settles O36: it holds; the registers written are those of the User bank, R15 not among them. -/
theorem userBankLoad : Obligations.UserBankLoad := by
  intro c p u rn list s hready hmode h15
  have ht : s.cpsr.t = false := armState_of_runs (ready_iff.1 hready).1 rfl
  let f := armBlock s p u false rn list
  have hpc : (advance (userLoaded f s)).pc = s.pc + 4 := by
    rw [(advanced_of_samePc (samePc_userLoaded s h15) (userLoaded_lastFetch s)).1, ht]
    rfl
  have frame := ((flagFrame_userLoaded (f := f) s).trans (.advance _)).trans (.setHazard _ true)
  rw [exec_ldm_user hready h15 hmode]
  refine ⟨_, rfl, fun k r hk => ?_, hpc, rfl, userLoaded_lastFetch (f := f) s,
    frame.withCpsr (userLoaded_cpsr (f := f) s)⟩
  have hr : bank .user r ≠ .pc := fun e => h15 ((bank_eq_pc_iff ..).1 e ▸ List.mem_of_getElem? hk)
  calc readUsrReg { advance (userLoaded f s) with userBankHazard := true } r
      = readPhys (advance (userLoaded f s)) (bank .user r) := readPhys_setHazard ..
    _ = readUsrReg (userLoaded f s) r := readPhys_advance _ _ hr
    _ = f.wordRead s k := readUsrReg_userLoaded s (transferredRegs_nodup list) hk

/-- Settles O37: it holds; the registers are loaded before CPSR is restored, and R15 is aligned by the restored T. -/
theorem ldmReturn : Obligations.LdmReturn := by
  intro c p u w rn list s n f hready h15 hn
  have hrn : rn ≠ 15 := ldm_base_ne_pc (ready_iff.1 hready).1
  have hd : f.regs.Nodup := transferredRegs_nodup list
  have loaded : Underway (f.rn :: f.regs) (fun _ => False) s (formLoaded f s) := underway_formLoaded s hrn
  have hmode : (formLoaded f s).cpsr.mode.spsr = some n := by rwa [formLoaded_cpsr]
  have hspsr : readSpsr (formLoaded f s) n = readSpsr s n := loaded.spsrs n List.not_mem_nil
  obtain ⟨k, hk⟩ := List.getElem?_of_mem h15
  have hexec : exec (.ldm c p u true w rn list) s
      = andThen (restoreCpsr (formLoaded f s)) fun v => .next (writePc v (f.wordRead s k)) :=
    (exec_ldm_return hready h15 (by simp [hn])).trans (blockLoad_return (f := f) hk hd s)
  rw [hexec]
  refine ⟨fun q hq => ?_, fun hq => ?_⟩
  · rw [restoreCpsr_of_psr hmode (hspsr ▸ hq), andThen_next]
    have shown {r : Reg} (hr : r ≠ 15) (v : Word) :
        readPhys (writePc { formLoaded f s with cpsr := q } v) (bank s.cpsr.mode r) = readReg (formLoaded f s) r := by
      rw [readPhys_writePc _ _ _ fun e => hr ((bank_eq_pc_iff ..).1 e), readPhys_setCpsr, readReg, formLoaded_cpsr]
    refine ⟨_, rfl, fun j r hj hne => ?_, fun hmem => ?_, rfl, fun j hj => ?_,
      (loaded.toFlagFrame.trans (.setCpsr _ q)).trans (.writePc _ _)⟩
    · rw [shown hne, readReg_formLoaded_listed s hd hj hne]
    · rw [shown hrn]
      exact readReg_formLoaded_base s hrn hmem
    · rw [place_unique hd hk hj]
      exact jumped_writePc { formLoaded f s with cpsr := q } _
  · rw [restoreCpsr_no_mode hmode (hspsr ▸ hq), andThen_fault, hspsr]

/-- Settles O39: it holds; User and System mode have no SPSR. -/
theorem userBankFormsFault : Obligations.UserBankFormsFault := by
  intro c p u w rn list s hmode
  have hnone : s.cpsr.mode.spsr = none := (spsr_eq_none_iff _).2 hmode
  refine ⟨fun hr => ?_, fun hr => ?_⟩
  · change loadMultiple c p u true w rn list s = _
    rw [loadMultiple, whenCond_of_runs hr rfl, beq_eq_false_iff_ne.2 (ldm_base_ne_pc hr), hnone]
    rfl
  · change storeMultiple c p u true w rn list s = _
    rw [storeMultiple, whenCond_of_runs hr rfl, beq_eq_false_iff_ne.2 (stm_base_ne_pc hr), hnone]
    rfl

/-! ## The words of a block store -/

/-- The bytes of the `n` words from an address on. -/
def InWords (start : Word) (n : Nat) (b : Word) : Prop :=
  ∃ k, k < n ∧ InAccess .word (alignWord (start + BitVec.ofNat 32 (4 * k))) b

/-- The bytes of a word share its aligned address. -/
theorem alignWord_of_inAccess {a b : Word} (h : InAccess .word (alignWord a) b) : alignWord b = alignWord a := by
  obtain ⟨k, hk, rfl⟩ := h
  have hk : k < 4 := hk
  have ha := a.isLt
  refine BitVec.eq_of_toNat_eq ?_
  simp only [alignWord_toNat, BitVec.toNat_add, BitVec.toNat_ofNat]
  omega

/-- Each word of a block of stores is stored: what the platform answers is left alone, word by word. -/
theorem stored_of_wordsStored {s t : State} {start : Word} {words : List Word}
    (h : t.mem = wordsStored s.devices s.mem start words) (hl : words.length ≤ 16) {k : Nat} {v : Word}
    (hk : words[k]? = some v) : Stored .word (alignWord (start + BitVec.ofNat 32 (4 * k))) v s t := by
  refine ⟨fun hordinary => ?_, fun hdevice b hb => ?_⟩
  · rw [h]
    exact memRead_wordsStored _ _ _ _ hl k v hk hordinary
  · rw [h]
    refine byteAt_wordsStored_of_outside _ _ _ _ _ fun j _ hj i hi e => ?_
    have hsame := (alignWord_of_inAccess hb).symm.trans (alignWord_of_inAccess ⟨i, hi, e⟩)
    rw [hsame, hj] at hdevice
    cases hdevice

/-- A block of stores that meets no slot already fetched. -/
theorem storeBlock_of_clear {s : State} {start : Word} {words : List Word}
    (h : ∀ k, k < words.length → storeHitsPipeline s .word (alignWord (start + BitVec.ofNat 32 (4 * k))) = false) :
    ∃ u, storeBlock s false start words = .next u ∧ u.mem = wordsStored s.devices s.mem start words
      ∧ u.cpsr = s.cpsr ∧ ∀ rs, Underway rs (InWords start words.length) s u := by
  obtain ⟨platform, bus, budget, hstore⟩ := storeBlock_next s false start words h
  refine ⟨_, hstore, rfl, rfl, fun rs => ⟨fun p _ _ => by cases p <;> rfl, fun n _ => by cases n <;> rfl,
    fun b hb => ?_, Keeps.sameHost_refl s, ⟨rfl, rfl⟩, rfl, rfl⟩⟩
  exact byteAt_wordsStored_of_outside _ _ _ _ _ fun k hk _ j hj e => hb ⟨k, hk, j, hj, e⟩

theorem storedWords_getElem? {f : BlockForm} {k : Nat} {r : Reg} (h : f.regs[k]? = some r) (hd : f.regs.Nodup)
    (s : State) : (storedWords s f.pcOff f.w f.rn f.newBase f.regs)[k]? = some (f.storedValue s k r) := by
  simp [storedWords_eq_zipIdx f s hd, List.getElem?_zipIdx, h]

theorem storedUserWords_getElem? {regs : List Reg} {k : Nat} {r : Reg} (h : regs[k]? = some r) (s : State) :
    (storedUserWords s regs)[k]? = some (userStoredValue s r) := by
  rw [storedUserWords, List.getElem?_map, h]
  rfl

/-- Settles O35: it holds; the words are read before the write-back, and no store of a word falls on another. -/
theorem blockStoreResults : Obligations.BlockStoreResults := by
  intro i f s hf hready hclear
  obtain ⟨hr, hb⟩ := ready_iff.1 hready
  obtain ⟨hrn, list, hlist⟩ := blockStoreForm_list hf hr
  have hd : f.regs.Nodup := hlist ▸ transferredRegs_nodup list
  have hlen : (storedWords s f.pcOff f.w f.rn f.newBase f.regs).length = f.regs.length := List.length_map _
  have hle : f.regs.length ≤ 16 := hlist ▸ transferredRegs_length_le list
  obtain ⟨u, hstore, hmem, hcpsr, written⟩ := storeBlock_of_clear (hlen ▸ hclear)
  rw [hlen] at written
  have base : Underway [f.rn] (InWords f.start f.regs.length) s
      (if f.w then setReg u f.rn f.newBase else u) := by
    split
    · exact (written _).trans (.setReg (List.mem_singleton_self _) hrn f.newBase)
    · exact written _
  rw [exec_blockStoreForm hf hr, hb, faultIf_false, blockStore, hstore, andThen_next]
  refine ⟨_, rfl, fun k r hk => stored_of_wordsStored ?_ (hlen ▸ hle) (storedWords_getElem? hk hd s), ?_,
    base.advanced, base.storeFrame ?_⟩
  · rw [advance_mem, ← hmem]
    split
    · exact setReg_mem ..
    · rfl
  · rw [readReg_advance _ _ hrn]
    split
    · exact readReg_setReg_same ..
    · exact (written []).readReg List.not_mem_nil hrn
  · split
    · exact (setReg_cpsr ..).trans hcpsr
    · exact hcpsr

/-- Settles O38: it holds; the words are those of the User bank, and no register is written. -/
theorem userBankStore : Obligations.UserBankStore := by
  intro c p u rn list s f hready hmode hclear
  obtain ⟨hr, hb⟩ := ready_iff.1 hready
  have hlen : (storedUserWords s f.regs).length = f.regs.length := List.length_map _
  obtain ⟨t, hstore, hmem, hcpsr, written⟩ := storeBlock_of_clear (hlen ▸ hclear)
  rw [hlen] at written
  rw [exec_stm_of_runs hr fun _ => hmode, if_pos rfl, hb, faultIf_false, if_pos rfl]
  refine ⟨advance t, ?_, fun k r hk => ?_, (written []).advanced, (written []).storeFrame hcpsr⟩
  · exact (congrArg (andThen · _) hstore).trans (andThen_next ..)
  · exact stored_of_wordsStored hmem (hlen ▸ transferredRegs_length_le list) (storedUserWords_getElem? hk s)

end Sys2Proof.Machine


/-! The branches, the exchange and the two exceptions an instruction takes (44_arm_branch_system.md, the Thumb forms in
45_thumb_alu.md and 47_thumb_branch.md): what is left of each once its checks have passed, and what it leaves. -/

namespace Sys2Proof.Machine

open Sys2Proof Sys2Proof.Claims

/-! ## B and BL (44_arm_branch_system.md R340, R341) -/

section
variable {c : Cond} {off : BitVec 24} {s : State}

theorem exec_b_of_runs (hr : runs (.b c off) s = true) :
    exec (.b c off) s = .next (writePc s (branchTarget s off)) :=
  whenCond_of_runs hr rfl _

theorem exec_bl_of_ready (hready : ready (.bl c off) s [14] = true) :
    exec (.bl c off) s = .next (writePc (setReg s 14 (s.pc + 4)) (branchTarget s off)) := by
  obtain ⟨hr, hb⟩ := ready_iff.1 hready
  change branchLink c off s = _
  rw [branchLink, whenCond_of_runs hr rfl, hb, faultIf_false]

end

/-- A jump in ARM state clears the two low bits of the target (10_state.md R39). -/
theorem jumped_writePc_arm {u : State} (ht : u.cpsr.t = false) (v : Word) :
    Jumped (fetchAddress false v) (writePc u v) := ht ▸ jumped_writePc u v

/-- Settles O41: it holds; a branch is one PC write in ARM state, and BL writes R14 before it. -/
theorem armBranches : Obligations.ArmBranches := by
  refine ⟨fun c off s hready => ?_, fun c off s hready => ?_⟩
  · have hr := (ready_iff.1 hready).1
    exact ⟨_, exec_b_of_runs hr, jumped_writePc_arm (armState_of_runs hr rfl) _, (FlagFrame.writePc s _).withCpsr rfl⟩
  · have ht : (setReg s 14 (s.pc + 4)).cpsr.t = false := by
      rw [setReg_cpsr]
      exact armState_of_runs (ready_iff.1 hready).1 rfl
    have linked : FlagFrame (seen s [14]) s (setReg s 14 (s.pc + 4)) := .setReg (List.mem_singleton_self _) _
    refine ⟨_, exec_bl_of_ready hready, jumped_writePc_arm ht _, ?_, (linked.trans (.writePc _ _)).withCpsr ?_⟩
    · rw [readReg_writePc _ _ _ (by decide), readReg_setReg_same]
    · rw [writePc_cpsr, setReg_cpsr]

/-! ## BX (44_arm_branch_system.md R342, 45_thumb_alu.md R401) -/

theorem exec_bx_of_ready {c : Cond} {sbo : BitVec 12} {rm : Reg} {s : State}
    (hready : ready (.bx c sbo rm) s [rm] = true) : exec (.bx c sbo rm) s = .next (exchange s (operandReg s rm 8)) := by
  obtain ⟨hr, hb⟩ := ready_iff.1 hready
  obtain ⟨hsbo, -⟩ := (firstDefect_cons_eq_none ..).1 (checks_of_runs (c := c) hr rfl)
  change branchExchange c sbo rm s = _
  rw [branchExchange, whenCond_of_runs hr rfl, hsbo, hb, faultIf_false, faultIf_false]

theorem exec_tBx_of_ready {h1 h2 : Bool} {rs rd : LowReg} {s : State}
    (hready : ready (.tBx h1 h2 rs rd) s [highReg h2 rs] = true) :
    exec (.tBx h1 h2 rs rd) s = .next (exchange s (operandReg s (highReg h2 rs) 4)) := by
  obtain ⟨hr, hb⟩ := ready_iff.1 hready
  obtain ⟨hfields, -⟩ := (firstDefect_cons_eq_none ..).1 (defect_of_runs hr)
  change thumbBranchExchange h1 h2 rs rd s = _
  rw [thumbBranchExchange, hfields, hb, faultIf_false, faultIf_false]
  rfl

/-- The PC write of an exchange aligns by the new T. -/
theorem exchanged_exchange (s : State) (target : Word) : Exchanged target s (exchange s target) := by
  refine ⟨rfl, ?_, (FlagFrame.setCpsr s _).trans (.writePc _ _)⟩
  rw [← fetchAddress_eq_and]
  exact jumped_writePc { s with cpsr := { s.cpsr with t := target.getLsbD 0 } } target

/-- Settles O42: it holds; in both sets BX is the exchange to its source operand. -/
theorem branchExchangeResults : Obligations.BranchExchange :=
  ⟨fun _ _ _ s hready => ⟨_, exec_bx_of_ready hready, exchanged_exchange s _⟩,
    fun _ _ _ _ s hready => ⟨_, exec_tBx_of_ready hready, exchanged_exchange s _⟩⟩

/-! ## Exception entry (60_exceptions.md R495) -/

theorem link_ne_pc (k : ExceptionKind) : bankHigh k.mode 1 ≠ .pc := by cases k <;> exact nofun

theorem entered_enterException (k : ExceptionKind) (ret : Word) (s : State) :
    Entered k.mode (bankHigh k.mode 1) k.spsr k.vector ret s (enterException k ret s) where
  linked := by rw [readPhys_enterException _ _ _ _ (link_ne_pc k), if_pos rfl]
  saved := ⟨Config.freeReserved s.draws, by rw [readSpsr_enterException, if_pos rfl, cpsrRead]⟩
  cpsr := enterException_cpsr k ret s
  pc := enterException_pc k ret s
  hazard := enterException_userBankHazard k ret s
  fetch := enterException_lastFetch k ret s
  regs p hp hlink := by rw [readPhys_enterException _ _ _ _ hp, if_neg fun e => hlink (List.mem_singleton.2 e)]
  spsrs n hn := by rw [readSpsr_enterException, if_neg fun e => hn (List.mem_singleton.2 e)]
  mem a := by rw [enterException_mem]
  host := (Keeps.enterException k ret s).host

/-- What comes before the entry and changes nothing that `Frame` names may be left out. -/
theorem entered_of_frame {m : Mode} {link : PhysReg} {n : SpsrName} {vec ret : Word} {s u t : State}
    (before : Frame [] s u) (h : Entered m link n vec ret u t) : Entered m link n vec ret s t where
  linked := h.linked
  saved := before.cpsr ▸ h.saved
  cpsr := before.cpsr ▸ h.cpsr
  pc := h.pc
  hazard := h.hazard
  fetch := h.fetch
  regs p hp hlink := (h.regs p hp hlink).trans (before.regs p hp List.not_mem_nil)
  spsrs k hk := (h.spsrs k hk).trans (before.spsrs k List.not_mem_nil)
  mem a := (h.mem a).trans (before.mem a)
  host := Keeps.sameHost_trans before.host h.host

theorem raiseSoftwareInterrupt_enters (s : State) : ∃ t, raiseSoftwareInterrupt s = .next t
    ∧ Entered .supervisor (.svc 1) .svc 0x00000008 (s.pc + instrWidth s) s t :=
  ⟨_, rfl, entered_enterException .softwareInterrupt _ s⟩

/-- The internal cycle of the trap changes nothing that an entry leaves (70_reset_and_hazards.md R551). -/
theorem raiseUndefined_enters (s : State) : ∃ t, raiseUndefined s = .next t
    ∧ Entered .undefined (.und 1) .und 0x00000004 (s.pc + instrWidth s) s t :=
  ⟨_, rfl, entered_of_frame ((FlagFrame.charge s 1).withCpsr rfl) (entered_enterException .undefinedInstr _ _)⟩

/-! ## The width of an instruction that runs -/

theorem instrWidth_of_runs_arm {i : Instr} {s : State} {c : Cond} (hr : runs i s = true) (hc : condOf i = some c) :
    instrWidth s = 4 := by
  rw [instrWidth, armState_of_runs hr hc]
  rfl

/-- An instruction without a condition runs in Thumb state. -/
theorem thumbState_of_runs {i : Instr} {s : State} (hr : runs i s = true) (hc : condOf i = none) :
    s.cpsr.t = true := by
  simp only [runs, hc, Bool.and_eq_true] at hr
  exact hr.1

theorem instrWidth_of_runs_thumb {i : Instr} {s : State} (hr : runs i s = true) (hc : condOf i = none) :
    instrWidth s = 2 := by
  rw [instrWidth, thumbState_of_runs hr hc]
  rfl

/-! ## SWI and the undefined-instruction trap -/

theorem exec_swi_of_runs {c : Cond} {cmt : BitVec 24} {s : State} (hr : runs (.swi c cmt) s = true) :
    exec (.swi c cmt) s = raiseSoftwareInterrupt s :=
  whenCond_of_runs hr rfl _

theorem exec_tSwi (val : BitVec 8) (s : State) : exec (.tSwi val) s = raiseSoftwareInterrupt s := rfl

/-- Settles O43: it holds; both forms raise the exception, and the return address is one instruction on. -/
theorem softwareInterruptEntry : Obligations.SoftwareInterruptEntry := by
  refine ⟨fun c cmt s hr => ?_, fun val s hr => ?_⟩
  · rw [exec_swi_of_runs hr]
    simpa only [instrWidth_of_runs_arm hr rfl] using raiseSoftwareInterrupt_enters s
  · rw [exec_tSwi]
    simpa only [instrWidth_of_runs_thumb hr rfl] using raiseSoftwareInterrupt_enters s

/-- The coprocessor instructions and the ARM UNDEFINED spaces are one operation, under their condition. -/
theorem exec_of_isUndefinedArm {i : Instr} (h : isUndefinedArm i = true) (s : State) :
    ∃ c, condOf i = some c ∧ exec i s = undefinedArm c s := by
  cases i with
  | stc c | ldc c | cdp c | mcr c | mrc c
  | undefMisc01000020 c | undefMisc01000040 c | undefMisc01000080 c | undefMisc01000010 c | undefMisc01200030 c
  | undefMisc01200050 c | undefMisc01400010 c | undefMulSwap00400090 c | undefMulSwap01100090 c
  | undefMulSwap01200090 c | undefMulSwap01800090 c | undefHalfStore c | undefTstImm c | undefArch c =>
    exact ⟨c, rfl, rfl⟩
  | _ => cases h

/-- The Thumb UNDEFINED spaces are the trap itself. -/
theorem exec_of_isUndefinedThumb {i : Instr} (h : isUndefinedThumb i = true) (s : State) :
    condOf i = none ∧ exec i s = raiseUndefined s := by
  cases i with
  | tUndefB1 | tUndefB8 | tUndefB2 | tUndefDE | tUndefE8 => exact ⟨rfl, rfl⟩
  | _ => cases h

/-- Settles O44: it holds; every such instruction raises the one trap, whatever its fields are. -/
theorem undefinedEntry : Obligations.UndefinedEntry := by
  refine ⟨fun i s hi hr => ?_, fun i s hi hr => ?_⟩
  · obtain ⟨c, hc, hexec⟩ := exec_of_isUndefinedArm hi s
    rw [hexec, undefinedArm, whenCond_of_runs hr hc]
    simpa only [instrWidth_of_runs_arm hr hc] using raiseUndefined_enters s
  · obtain ⟨hc, hexec⟩ := exec_of_isUndefinedThumb hi s
    rw [hexec]
    simpa only [instrWidth_of_runs_thumb hr hc] using raiseUndefined_enters s

end Sys2Proof.Machine


/-! The Thumb instructions of formats 1 to 5 (45_thumb_alu.md R370 to R400): formats 1 to 4 as the data-processing
operations they are, MUL, and format 5 once its checks have passed. -/

namespace Sys2Proof.Machine

open Sys2Proof Sys2Proof.Claims

/-! ## The destination and the flags (45_thumb_alu.md R370) -/

/-- A result with its flags, where they go in formats 1 to 4: CPSR, and the destination where there is one. -/
def thumbWritten (rd : Option LowReg) (out : Word × Psr) (s : State) : State :=
  match rd with
  | some rd => setReg { s with cpsr := out.2 } (lowReg rd) out.1
  | none => { s with cpsr := out.2 }

@[simp] theorem thumbWritten_cpsr (rd : Option LowReg) (out : Word × Psr) (s : State) :
    (thumbWritten rd out s).cpsr = out.2 := by
  cases rd with
  | none => rfl
  | some rd => exact setReg_cpsr ..

theorem low_advance_thumbWritten (rd : LowReg) (out : Word × Psr) (s : State) :
    low (advance (thumbWritten (some rd) out s)) rd = out.1 :=
  readReg_advance_setReg _ (lowReg_ne_pc rd) _

/-- An instruction under way ends with its destination and its flags written. -/
theorem Underway.ends_thumbWritten {rd : Option LowReg} {out : Word × Psr} {s u : State}
    (h : Underway (rd.toList.map lowReg) (fun _ => False) s u) (ht : out.2.t = u.cpsr.t)
    (hm : out.2.mode = u.cpsr.mode) :
    Advanced s (advance (thumbWritten rd out u))
      ∧ FlagFrame (seen s (rd.toList.map lowReg)) s (advance (thumbWritten rd out u)) := by
  have flagged := h.trans (.setCpsr ht hm)
  cases rd with
  | none => exact ⟨flagged.advanced, flagged.flagFrame⟩
  | some rd =>
    have written := flagged.trans (.setReg (List.mem_singleton_self _) (lowReg_ne_pc rd) out.1)
    exact ⟨written.advanced, written.flagFrame⟩

/-! ## Formats 1 to 4 but MUL -/

@[simp] theorem charge_zero (s : State) : charge s 0 = s := by simp [charge]

/-- Each of the 26 instructions is one data-processing operation on its operands; a shift by register takes an
internal cycle (70_reset_and_hazards.md R551). -/
theorem exec_thumbAlu {i : Instr} {f : ThumbAlu} {s : State} (h : thumbAlu i s = some f) :
    ∃ n, exec i s = .next (advance (thumbWritten f.rd (dpCompute f.op f.a f.b f.sc s.cpsr) (charge s n))) := by
  cases i with
  | tLslImm | tLsrImm | tAsrImm | tAddReg | tSubReg | tAddImm3 | tSubImm3 | tMovImm | tCmpImm | tAddImm8 | tSubImm8
  | tAnd | tEor | tAdc | tSbc | tTst | tNeg | tCmpReg | tCmn | tOrr | tBic | tMvn =>
    cases h
    refine ⟨0, ?_⟩
    rw [charge_zero]
    rfl
  | tLslReg | tLsrReg | tAsrReg | tRorReg =>
    cases h
    exact ⟨1, rfl⟩
  | _ => cases h

/-- Settles O45: it holds; each instruction is a data-processing operation, which gives the result and the flags of
exact arithmetic. -/
theorem thumbAluResults : Obligations.ThumbAluResults := by
  intro i f s hf _
  obtain ⟨n, hexec⟩ := exec_thumbAlu hf
  rw [dpCompute_eq_spec] at hexec
  refine ⟨_, hexec, fun rd hrd => ?_, thumbWritten_cpsr ..,
    (Underway.charge s n).ends_thumbWritten (specFlags_t ..) (specFlags_mode ..)⟩
  rw [hrd]
  exact low_advance_thumbWritten ..

/-! ## MUL (45_thumb_alu.md R395) -/

theorem exec_tMul_of_runs {rs rd : LowReg} {s : State} (hr : runs (.tMul rs rd) s = true) :
    exec (.tMul rs rd) s = .next (advance (thumbWritten (some rd)
      (low s rs * low s rd, mulFlags s.cpsr (low s rs * low s rd) (drawnBit s))
      (drew (charge s (multiplyCycles true (low s rd)))))) := by
  obtain ⟨hover, -⟩ := (firstDefect_cons_eq_none ..).1 (defect_of_runs hr)
  change thumbMultiply rs rd s = _
  rw [thumbMultiply, hover, faultIf_false]
  rfl

/-- Settles O46: it holds; the product of the words is that of the numbers modulo 2^32, and C is the bit drawn. -/
theorem thumbMulResult : Obligations.ThumbMulResult := by
  intro rs rd s hr v
  have hv : low s rs * low s rd = v := by simp only [v, BitVec.ofNat_mul, BitVec.ofNat_toNat, BitVec.setWidth_eq]
  rw [exec_tMul_of_runs hr, hv, mulFlags_eq]
  refine ⟨_, rfl, low_advance_thumbWritten .., ?_, ((Underway.charge s _).trans (.drew _)).ends_thumbWritten rfl rfl⟩
  rw [advance_cpsr, thumbWritten_cpsr]

/-! ## Format 5 but BX (45_thumb_alu.md R398 to R400) -/

/-- What is left of a Thumb instruction with one encoding check, once it is ready. -/
theorem thumbChecks_of_ready {i : Instr} {s : State} {rs : List Reg} {bad : Bool} {u : UnpredictableCase}
    (hready : ready i s rs = true) (hd : i.defect = firstDefect [(bad, u)]) (k : Result) :
    faultIf bad u (faultIf (bankHazard s rs) .userBankHazard k) = k := by
  obtain ⟨hr, hb⟩ := ready_iff.1 hready
  obtain ⟨hbad, -⟩ := (firstDefect_cons_eq_none ..).1 (hd.symm.trans (defect_of_runs hr))
  rw [hbad, hb, faultIf_false, faultIf_false]

theorem writeHigh_written {s : State} (ht : s.cpsr.t = true) (rd : Reg) (v : Word) :
    ∃ t, writeHigh rd v s = .next t ∧ WrittenHigh rd v s t := by
  by_cases hrd : rd = 15
  · subst hrd
    have jumped := jumped_writePc s v
    rw [ht, fetchAddress_eq_and] at jumped
    exact ⟨_, if_pos rfl, fun h => absurd rfl h, fun _ => jumped, (FlagFrame.writePc s v).withCpsr rfl⟩
  · have after : Underway [rd] (fun _ => False) s _ := .setReg (List.mem_singleton_self rd) hrd v
    exact ⟨_, if_neg hrd, fun _ => ⟨readReg_advance_setReg s hrd v, after.advanced⟩, fun h => absurd h hrd,
      after.frame (setReg_cpsr ..)⟩

section
variable {h1 h2 : Bool} {rs rd : LowReg} {s : State}

theorem exec_tAddHi_of_ready (hready : ready (.tAddHi h1 h2 rs rd) s [highReg h1 rd, highReg h2 rs] = true) :
    exec (.tAddHi h1 h2 rs rd) s
      = writeHigh (highReg h1 rd) (ahead s (highReg h1 rd) + ahead s (highReg h2 rs)) s :=
  thumbChecks_of_ready hready rfl _

theorem exec_tMovHi_of_ready (hready : ready (.tMovHi h1 h2 rs rd) s [highReg h1 rd, highReg h2 rs] = true) :
    exec (.tMovHi h1 h2 rs rd) s = writeHigh (highReg h1 rd) (ahead s (highReg h2 rs)) s :=
  thumbChecks_of_ready hready rfl _

/-- CMP is the data-processing comparison of its two operands. -/
theorem exec_tCmpHi_of_ready (hready : ready (.tCmpHi h1 h2 rs rd) s [highReg h1 rd, highReg h2 rs] = true) :
    exec (.tCmpHi h1 h2 rs rd) s
      = thumbFlags (dpCompute .cmp (ahead s (highReg h1 rd)) (ahead s (highReg h2 rs)) false s.cpsr).2 s :=
  thumbChecks_of_ready hready rfl _

end

/-- Settles O47: it holds; ADD and MOV write their destination in Thumb state, where a PC write clears one bit, and
CMP writes CPSR alone. -/
theorem thumbHighRegisters : Obligations.ThumbHighRegisters := by
  refine ⟨fun h1 h2 rs rd s hready => ?_, fun h1 h2 rs rd s hready => ?_, fun h1 h2 rs rd s hready => ?_⟩
  · rw [exec_tAddHi_of_ready hready]
    exact writeHigh_written (thumbState_of_runs (ready_iff.1 hready).1 rfl) ..
  · rw [exec_tMovHi_of_ready hready]
    exact writeHigh_written (thumbState_of_runs (ready_iff.1 hready).1 rfl) ..
  · rw [exec_tCmpHi_of_ready hready, dpCompute_eq_spec]
    exact ⟨_, rfl, rfl, advance_setCpsr (specFlags_t ..)⟩

end Sys2Proof.Machine


/-! The Thumb additions of formats 12 and 13 (46_thumb_load_store.md R438 to R441): each ends with one register
written, and those that access R13 make the user-bank check before it. -/

namespace Sys2Proof.Machine

open Sys2Proof Sys2Proof.Claims

/-- What is left of an instruction that accesses R13, once it is ready. -/
theorem onStack_of_ready {i : Instr} {s : State} (hready : ready i s [13] = true) (k : Result) : onStack s k = k := by
  rw [onStack, (ready_iff.1 hready).2, faultIf_false]

/-- An instruction that ends with one register written leaves CPSR and every other register. -/
theorem written_advance_setReg (s : State) {r : Reg} (hr : r ≠ 15) (v : Word) :
    readReg (advance (setReg s r v)) r = v ∧ Advanced s (advance (setReg s r v))
      ∧ Frame (seen s [r]) s (advance (setReg s r v)) :=
  have after : Underway [r] (fun _ => False) s _ := .setReg (List.mem_singleton_self r) hr v
  ⟨readReg_advance_setReg s hr v, after.advanced, after.frame (setReg_cpsr ..)⟩

theorem exec_thumbAddressForm {i : Instr} {s : State} {rd : LowReg} {v : Word} {rs : List Reg}
    (hf : thumbAddressForm i s = some (rd, v, rs)) (hready : ready i s rs = true) :
    exec i s = .next (advance (setReg s (lowReg rd) v)) := by
  cases i with
  | tAddPc => cases hf; rfl
  | tAddSp => cases hf; exact onStack_of_ready hready _
  | _ => cases hf

theorem exec_tSpAdd_of_ready {off : BitVec 7} {s : State} (hready : ready (.tSpAdd off) s [13] = true) :
    exec (.tSpAdd off) s = .next (advance (setReg s 13 (readReg s 13 + ((off.setWidth 32 : Word) <<< 2)))) :=
  onStack_of_ready hready _

theorem exec_tSpSub_of_ready {off : BitVec 7} {s : State} (hready : ready (.tSpSub off) s [13] = true) :
    exec (.tSpSub off) s = .next (advance (setReg s 13 (readReg s 13 - ((off.setWidth 32 : Word) <<< 2)))) :=
  onStack_of_ready hready _

/-- Settles O48: it holds; each instruction ends with one register written, which is not R15. -/
theorem thumbAddresses : Obligations.ThumbAddresses :=
  ⟨fun _ rd _ _ s hf hready => ⟨_, exec_thumbAddressForm hf hready, written_advance_setReg s (lowReg_ne_pc rd) _⟩,
    fun _ s hready => ⟨_, exec_tSpAdd_of_ready hready, written_advance_setReg s (by decide) _⟩,
    fun _ s hready => ⟨_, exec_tSpSub_of_ready hready, written_advance_setReg s (by decide) _⟩⟩

end Sys2Proof.Machine


/-! The Thumb branches (47_thumb_branch.md R470 to R474): each is one PC write or the PC advance in Thumb state, and the
two halves of BL write R14 before it. -/

namespace Sys2Proof.Machine

open Sys2Proof Sys2Proof.Claims

/-- A jump in Thumb state clears the low bit of the target (10_state.md R39). -/
theorem jumped_writePc_thumb {u : State} (ht : u.cpsr.t = true) (v : Word) :
    Jumped (fetchAddress true v) (writePc u v) := ht ▸ jumped_writePc u v

theorem frame_writePc (s : State) (v : Word) : Frame [] s (writePc s v) := (FlagFrame.writePc s v).withCpsr rfl

theorem frame_advance (s : State) : Frame [] s (advance s) := (FlagFrame.advance s).withCpsr rfl

/-- The three rows of B<cond> are one operation. -/
theorem exec_thumbBranchForm {i : Instr} {s : State} {c : Cond} {a : Word} (h : thumbBranchForm i s = some (c, a)) :
    condOf i = none ∧ exec i s = if condHolds c s.cpsr then .next (writePc s a) else .next (advance s) := by
  cases i with
  | tBcondD0 | tBcondD8 | tBcondDC => cases h; exact ⟨rfl, rfl⟩
  | _ => cases h

theorem exec_tB (off : BitVec 11) (s : State) :
    exec (.tB off) s = .next (writePc s (s.pc + 4 + (off.signExtend 32 <<< 1))) := rfl

theorem exec_tBlFirst_of_ready {off : BitVec 11} {s : State} (hready : ready (.tBlFirst off) s [14] = true) :
    exec (.tBlFirst off) s = .next (advance (setReg s 14 (s.pc + 4 + (off.signExtend 32 <<< 12)))) := by
  change thumbLinkFirst off s = _
  rw [thumbLinkFirst, (ready_iff.1 hready).2, faultIf_false]
  rfl

theorem exec_tBlSecond_of_ready {off : BitVec 11} {s : State} (hready : ready (.tBlSecond off) s [14] = true) :
    exec (.tBlSecond off) s = .next (writePc (setReg s 14 ((s.pc + 2) ||| 1))
      (readReg s 14 + ((off.setWidth 32 : Word) <<< 1))) := by
  change thumbLinkSecond off s = _
  rw [thumbLinkSecond, (ready_iff.1 hready).2, faultIf_false]

/-- Settles O49: it holds; a taken branch is one PC write in Thumb state, and the halves of BL, once they pass the
user-bank check, write R14 before their advance or jump. -/
theorem thumbBranches : Obligations.ThumbBranches := by
  refine ⟨fun i c a s hf hready => ?_, fun off s hready => ?_, fun off s hready => ?_, fun off s hready => ?_⟩
  · obtain ⟨hc, hexec⟩ := exec_thumbBranchForm hf
    have ht := thumbState_of_runs (ready_iff.1 hready).1 hc
    rw [hexec]
    split
    · exact ⟨_, rfl, jumped_writePc_thumb ht a, frame_writePc s a⟩
    · exact ⟨_, rfl, advanced_of_samePc (.refl s) rfl, frame_advance s⟩
  · have ht := thumbState_of_runs (ready_iff.1 hready).1 rfl
    exact ⟨_, exec_tB off s, jumped_writePc_thumb ht _, frame_writePc s _⟩
  · exact ⟨_, exec_tBlFirst_of_ready hready, written_advance_setReg s (by decide) _⟩
  · have ht := thumbState_of_runs (ready_iff.1 hready).1 rfl
    have linked : FlagFrame (seen s [14]) s (setReg s 14 ((s.pc + 2) ||| 1)) := .setReg (List.mem_singleton_self _) _
    refine ⟨_, exec_tBlSecond_of_ready hready, jumped_writePc_thumb ?_ _, ?_, (linked.trans (.writePc _ _)).withCpsr ?_⟩
    · rwa [setReg_cpsr]
    · rw [readReg_writePc _ _ _ (by decide), readReg_setReg_same]
    · rw [writePc_cpsr, setReg_cpsr]

end Sys2Proof.Machine


/-! The dispatch loop (70_reset_and_hazards.md R540 to R551): what a step does at a boundary, and what a call of
`execute` returns. -/

namespace Sys2Proof.Machine

open Sys2Proof Sys2Proof.Claims

@[simp] theorem readSpsr_debit (s t : State) (n : SpsrName) : readSpsr (debit s t) n = readSpsr t n := by
  cases n <;> simp [readSpsr]

/-! ## A step, by what the boundary says (70_reset_and_hazards.md R543) -/

theorem step_of_held {s : State} (h : hostHolds s = true) : step s = .next s := if_pos h

theorem step_of_irq {s : State} (h : hostHolds s = false) (hirq : irqTaken s = true) :
    step s = .next (irqStep s) := by
  rw [step, h, if_neg Bool.false_ne_true, if_pos hirq]

theorem step_of_fetch {s : State} (h : hostHolds s = false) (hirq : irqTaken s = false) :
    step s = andThen (exec (decode (fetchCode s)) (fetched s)) (fun t => .next (debit s t)) := by
  rw [step, h, if_neg Bool.false_ne_true, hirq, if_neg Bool.false_ne_true]

/-! ## The fetch (20_memory.md R90, 70_reset_and_hazards.md R550) -/

/-- The low halfword of a zero-extended halfword is the halfword. -/
theorem extractLsb'_setWidth_half (h : BitVec 16) : (h.setWidth 32 : Word).extractLsb' 0 16 = h := by
  rw [← BitVec.setWidth_eq_extractLsb' (by decide), BitVec.setWidth_setWidth_of_le _ (by decide), BitVec.setWidth_eq]

theorem fetchCode_ordinary {s : State} (h : isDevice s.devices s.pc = false) :
    fetchCode s = if s.cpsr.t then .thumb (byteAt s.mem (s.pc + 1) ++ byteAt s.mem s.pc)
      else .arm (byteAt s.mem (s.pc + 3) ++ byteAt s.mem (s.pc + 2) ++ byteAt s.mem (s.pc + 1)
        ++ byteAt s.mem s.pc) := by
  rw [fetchCode, busRead_ordinary .half h, busRead_ordinary .word h, memRead, extractLsb'_setWidth_half]
  rfl

theorem fetchCode_device {s : State} (h : isDevice s.devices s.pc = true) :
    fetchCode s = if s.cpsr.t then .thumb ((Config.platformRead s.platform .half s.pc).extractLsb' 0 16)
      else .arm (Config.platformRead s.platform .word s.pc) := by
  rw [fetchCode, busRead_device .half h, busRead_device .word h, Width.cut, extractLsb'_setWidth_half]
  rfl

theorem fetchSequential_iff (s : State) :
    fetchSequential s = true ↔ ∃ a, s.lastFetch = some a ∧ s.pc = a + (if s.cpsr.t then 2 else 4) := by
  unfold fetchSequential
  split
  · next h => simp [h]
  · next a h => simp [h, instrWidth]

/-! ## The debit (70_reset_and_hazards.md R551) -/

theorem debit_eq (s t : State) : debit s t =
    { t with cycleBudget := if s.costRule = .host then s.cycleBudget - max 1 (Config.cycleCost s t)
                            else min t.cycleBudget (s.cycleBudget - 1) } := by
  unfold debit
  split
  · next h => rw [h]; rfl
  · next h => rw [h]; simp

/-- Settles O50: it holds; the boundary decides among the three things a step can do, the record that `fetched` presents
is the one access, and the debit takes one of two costs. -/
theorem stepRunsDecoded : Obligations.StepRunsDecoded := by
  refine ⟨fun s i h hirq hi => hi ▸ step_of_fetch h hirq, fun s => step_of_held, fun s _ => fetchCode_ordinary,
    fun s _ => fetchCode_device, fun s _ => ?_, debit_eq⟩
  exact ⟨_, rfl, rfl, rfl, rfl, fetchSequential_iff s, rfl, rfl⟩

/-! ## The IRQ (60_exceptions.md R493, R499) -/

theorem flagFrame_setBus (s : State) (l : List BusAccess) : FlagFrame [] s { s with bus := l } :=
  ⟨fun p _ _ => by cases p <;> rfl, fun n _ => by cases n <;> rfl, fun _ => rfl, Keeps.sameHost_refl s⟩

/-- The debit changes nothing that an entry leaves. -/
theorem entered_debit {m : Mode} {link : PhysReg} {n : SpsrName} {vec ret : Word} {s u : State}
    (h : Entered m link n vec ret s u) (before : State) : Entered m link n vec ret s (debit before u) where
  linked := (readPhys_debit before u link).trans h.linked
  saved := readSpsr_debit before u n ▸ h.saved
  cpsr := (debit_cpsr before u).trans h.cpsr
  pc := (debit_pc before u).trans h.pc
  hazard := (debit_userBankHazard before u).trans h.hazard
  fetch := (debit_lastFetch before u).trans h.fetch
  regs p hp hlink := (readPhys_debit before u p).trans (h.regs p hp hlink)
  spsrs k hk := (readSpsr_debit before u k).trans (h.spsrs k hk)
  mem a := (congrArg (byteAt · a) (debit_mem before u)).trans (h.mem a)
  host := Keeps.sameHost_trans h.host (sameHostState_debit before u)

/-- What the entry costs, and the empty record of accesses it begins with, change nothing it leaves. -/
theorem irqStep_enters (s : State) : Entered .irq (.irq 1) .irq 0x00000018 (s.pc + 4) s (irqStep s) := by
  have before : Frame [] s (charge { s with bus := [] } (accessCycles s.accessTable true (!s.cpsr.t) s.pc)) :=
    ((flagFrame_setBus s []).trans (.charge ..)).withCpsr rfl
  exact entered_debit (entered_of_frame before (entered_enterException .hardwareInterrupt _ _)) s

/-- Settles O51: it holds; at a free boundary with the line up and I clear the step is the entry alone. -/
theorem irqAtBoundary : Obligations.IrqAtBoundary := by
  intro s hfree hline hmask
  have hirq : irqTaken s = true := by rw [irqTaken, hline, hmask]; rfl
  exact ⟨_, step_of_irq hfree hirq, irqStep_enters s⟩

/-- Settles O54: it holds; whether the step takes the IRQ or executes, it ends with the debit. -/
theorem stepSpendsBudget : Obligations.StepSpendsBudget := by
  intro s t hfree h
  cases hirq : irqTaken s with
  | true =>
    rw [step_of_irq hfree hirq] at h
    cases h
    exact debit_cycleBudget_le ..
  | false =>
    rw [step_of_fetch hfree hirq] at h
    obtain ⟨u, -, h⟩ := andThen_eq_next.1 h
    cases h
    exact debit_cycleBudget_le ..

/-! ## A call of `execute` -/

theorem hostHolds_of_budget {s : State} (h : s.cycleBudget ≤ 0) : hostHolds s = true := by simp [hostHolds, h]

/-- With as many passes as there are cycles left, the loop ends only where the host holds the core. -/
theorem dispatch_returns_held {fuel : Nat} {env : Nat → BoundaryInput} {s t : State} {r : Int}
    (hfuel : s.cycleBudget ≤ fuel) (h : dispatch fuel env s = .next (r, t)) :
    hostHolds t = true ∧ r = t.cycleBudget ∧ r ≤ s.cycleBudget := by
  induction fuel generalizing env s with
  | zero =>
    cases h
    exact ⟨hostHolds_of_budget hfuel, rfl, Int.le_refl _⟩
  | succ fuel ih =>
    simp only [dispatch] at h
    split at h
    · next held => cases h; exact ⟨held, rfl, Int.le_refl _⟩
    · next free =>
      split at h
      · next u hu =>
        have spent : u.cycleBudget ≤ s.cycleBudget - 1 :=
          stepSpendsBudget (applyInput s (env 0)) u (Bool.eq_false_of_not_eq_true free) hu
        obtain ⟨held, hr, hle⟩ := ih (by omega) h
        exact ⟨held, hr, by omega⟩
      · cases h
      · cases h

theorem execute_of_nonpos (env : Nat → BoundaryInput) {b : Int} (s : State) (h : b ≤ 0) :
    execute env b s = .next (b, s) := if_pos h

theorem execute_of_pos (env : Nat → BoundaryInput) {b : Int} (s : State) (h : 0 < b) :
    execute env b s = dispatch b.toNat env { s with cycleBudget := b } := if_neg (Int.not_le.2 h)

/-- Settles O52: it holds; a budget that is not positive returns before the loop. -/
theorem executeNonPositive : Obligations.ExecuteNonPositive := fun env _ s => execute_of_nonpos env s

/-- Settles O53: it holds; a budget of b is b passes of the loop, and each spends at least one cycle. -/
theorem executeReturnsHeld : Obligations.ExecuteReturnsHeld := by
  intro env b r s t hb h
  rw [execute_of_pos env s hb] at h
  exact dispatch_returns_held (Int.self_le_toNat b) h

end Sys2Proof.Machine


/-! Confinement of User mode (10_state.md R41, R44; 60_exceptions.md R502, R504): what each shared operation does there
either stays within what User mode owns or is an exception entry. -/

namespace Sys2Proof.Machine

open Sys2Proof Sys2Proof.Claims

/-- From `s` to `u` only what User mode owns has changed, and `u` is in User mode. -/
structure Confined (s u : State) : Prop where
  mode : u.cpsr.mode = .user
  irqMask : u.cpsr.i = s.cpsr.i
  fiqMask : u.cpsr.f = s.cpsr.f
  spsrs : SameSpsrs [] s u
  regs : ∀ p, (∀ k, p ≠ .usr k) → p ≠ .pc → readPhys u p = readPhys s p

/-- User mode has no SPSR. -/
theorem spsr_ne_some_of_user {m : Mode} (h : m = .user) (n : SpsrName) : m.spsr ≠ some n := by
  rw [h]
  exact nofun

/-- User mode sees the User bank and R15 alone (10_state.md R31). -/
theorem bank_user (r : Reg) : bank .user r = .pc ∨ ∃ k, bank .user r = .usr k := by
  revert r; decide

namespace Confined

variable {s u v : State}

theorem refl (h : s.cpsr.mode = .user) : Confined s s := ⟨h, rfl, rfl, fun _ _ => rfl, fun _ _ _ => rfl⟩

theorem trans (h : Confined s u) (k : Confined u v) : Confined s v where
  mode := k.mode
  irqMask := k.irqMask.trans h.irqMask
  fiqMask := k.fiqMask.trans h.fiqMask
  spsrs n hn := (k.spsrs n hn).trans (h.spsrs n hn)
  regs p hp hpc := (k.regs p hp hpc).trans (h.regs p hp hpc)

/-! ## Operations, each after what was confined -/

/-- An operation that leaves CPSR, and of the registers changes listed ones of the User bank and R15. -/
theorem thenFrame {rs : List PhysReg} (h : Confined s u) (k : FlagFrame rs u v) (hc : v.cpsr = u.cpsr)
    (hrs : ∀ p ∈ rs, p = .pc ∨ ∃ i, p = .usr i) : Confined s v :=
  h.trans ⟨hc ▸ h.mode, by rw [hc], by rw [hc], k.spsrs, fun p hp hpc => k.regs p hpc fun hmem =>
    (hrs p hmem).elim hpc fun ⟨i, e⟩ => hp i e⟩

/-- An operation that leaves CPSR and every register but R15. -/
theorem thenQuiet (h : Confined s u) (k : FlagFrame [] u v) (hc : v.cpsr = u.cpsr) : Confined s v :=
  h.thenFrame k hc nofun

theorem setCpsr {p : Psr} (h : Confined s u) (hm : p.mode = u.cpsr.mode) (hi : p.i = u.cpsr.i)
    (hf : p.f = u.cpsr.f) : Confined s { u with cpsr := p } :=
  h.trans ⟨hm.trans h.mode, hi, hf, fun n _ => by cases n <;> rfl, fun q _ _ => readPhys_setCpsr u p q⟩

theorem charge (h : Confined s u) (n : Nat) : Confined s (charge u n) := h.thenQuiet (.charge u n) rfl

theorem advance (h : Confined s u) : Confined s (advance u) := h.thenQuiet (.advance u) rfl

theorem writePc (h : Confined s u) (a : Word) : Confined s (writePc u a) := h.thenQuiet (.writePc u a) rfl

theorem setHazard (h : Confined s u) (b : Bool) : Confined s { u with userBankHazard := b } :=
  h.thenQuiet (.setHazard u b) rfl

theorem drew (h : Confined s u) : Confined s (drew u) :=
  h.thenQuiet (Underway.drew (rs := []) u).toFlagFrame rfl

theorem noteLoad (h : Confined s u) (q : Bool) (k : LoadKind) (a : Word) : Confined s (noteLoad u q k a) :=
  h.thenQuiet (Underway.noteLoad (rs := []) u q k a).toFlagFrame rfl

theorem noteBlockLoads (h : Confined s u) (q : Bool) (a : Word) (rs : List Reg) :
    Confined s (noteBlockLoads u q a rs) :=
  h.thenQuiet (Underway.noteBlockLoads (rs := []) u q a rs).toFlagFrame (noteBlockLoads_cpsr ..)

theorem setReg (h : Confined s u) (r : Reg) (a : Word) : Confined s (setReg u r a) := by
  refine h.thenFrame (rs := [bank .user r]) (.setReg ?_ a) (setReg_cpsr ..) fun p hp => ?_
  · rw [h.mode]
    exact List.mem_singleton_self _
  · exact List.mem_singleton.1 hp ▸ bank_user r

theorem setRegs (h : Confined s u) (l : List (Reg × Word)) : Confined s (setRegs u l) := by
  induction l generalizing u with
  | nil => exact h
  | cons x rest ih =>
    refine ih ?_
    split
    · exact h
    · exact h.setReg x.1 x.2

theorem setUsrRegs (h : Confined s u) (l : List (Reg × Word)) : Confined s (setUsrRegs u l) := by
  refine h.thenFrame (rs := l.map fun x => bank .user x.1) (.setUsrRegs u fun x hx => ?_) (setUsrRegs_cpsr ..)
    fun p hp => ?_
  · exact List.mem_map.2 ⟨x, hx, rfl⟩
  · obtain ⟨x, -, rfl⟩ := List.mem_map.1 hp
    exact bank_user x.1

theorem writeBase (h : Confined s u) (x : Indexing) (rn : Reg) (a : Word) : Confined s (writeBase u x rn a) := by
  unfold Machine.writeBase
  split
  · exact h.setReg rn a
  · exact h

theorem blockLoaded (h : Confined s u) (w : Bool) (rn : Reg) (start newBase : Word) (regs : List Reg) :
    Confined s (blockLoaded u w rn start newBase regs) := by
  have read := (h.charge 1).noteBlockLoads false start regs
  refine setRegs ?_ _
  split
  · exact read.setReg rn newBase
  · exact read

theorem store (h : Confined s u) {q : Bool} {w : Width} {a x : Word} (e : store u q w a x = .next v) :
    Confined s v := by
  obtain ⟨-, y, rfl⟩ := store_eq_next e
  exact h.trans ⟨h.mode, rfl, rfl, fun n _ => by cases n <;> rfl, fun p _ _ => by simp⟩

theorem storeBlock (h : Confined s u) {q : Bool} {a : Word} {l : List Word} (e : storeBlock u q a l = .next v) :
    Confined s v := by
  induction l generalizing u q a with
  | nil => cases e; exact h
  | cons x rest ih =>
    obtain ⟨w, hw, e⟩ := andThen_eq_next.1 e
    exact ih (h.store hw) e

/-- In User mode a write of CPSR reaches neither the mode nor the masks (10_state.md R41). -/
theorem writeCpsr (h : Confined s u) {a : Word} {mask : BitVec 4} (e : writeCpsr u a mask = .next v) :
    Confined s v := by
  obtain ⟨p, rfl, -, hp⟩ := writeCpsr_eq_next e
  obtain ⟨hm, hi, hf⟩ := hp h.mode
  exact h.setCpsr (hm.trans h.mode.symm) hi hf

/-- In User mode there is no SPSR to write (10_state.md R43). -/
theorem writeSpsr_ne_next (h : Confined s u) {a : Word} {mask : BitVec 4} : writeSpsr u a mask ≠ .next v := by
  intro e
  obtain ⟨n, hn, -⟩ := writeSpsr_eq_next e
  exact spsr_ne_some_of_user h.mode n hn

/-- In User mode there is no SPSR to restore CPSR from (10_state.md R42). -/
theorem restoreCpsr_ne_next (h : Confined s u) : restoreCpsr u ≠ .next v := by
  intro e
  obtain ⟨n, _, hn, -⟩ := restoreCpsr_eq_next e
  exact spsr_ne_some_of_user h.mode n hn

end Confined

/-- From `s` to `t` an exception was entered (60_exceptions.md R495). -/
structure Trapped (s t : State) : Prop where
  armState : t.cpsr.t = false
  irqMask : t.cpsr.i = true
  fiqMask : t.cpsr.f = s.cpsr.f
  target : ∃ k : ExceptionKind, t.cpsr.mode = k.mode ∧ t.pc = k.vector

theorem trapped_enterException {s u : State} (h : u.cpsr.f = s.cpsr.f) (k : ExceptionKind) (ret : Word) :
    Trapped s (enterException k ret u) := ⟨rfl, rfl, h, k, rfl, rfl⟩

/-- Every next state of a result is confined or an exception entry. -/
structure ConfinesAll (s : State) (r : Result) : Prop where
  confines : ∀ t, r = .next t → Confined s t ∨ Trapped s t

namespace ConfinesAll

variable {s u : State}

theorem next {t : State} (h : Confined s t) : ConfinesAll s (.next t) := ⟨fun _ e => by cases e; exact .inl h⟩

theorem fault {f : Fault} : ConfinesAll s (.fault f) := ⟨fun _ e => by cases e⟩

theorem faultIf {b : Bool} {c : UnpredictableCase} {k : Result} (h : ConfinesAll s k) :
    ConfinesAll s (faultIf b c k) := ⟨fun t e => h.confines t (faultIf_eq_next.1 e).2⟩

/-- A result that stays confined, then what stays confined after it. -/
theorem andThen {r : Result} {k : State → State} (hr : ∀ v, r = .next v → Confined s v)
    (hk : ∀ v, Confined s v → Confined s (k v)) : ConfinesAll s (andThen r fun v => .next (k v)) := by
  refine ⟨fun t e => ?_⟩
  obtain ⟨v, hv, e⟩ := andThen_eq_next.1 e
  cases e
  exact .inl (hk v (hr v hv))

theorem enterException (h : Confined s u) (k : ExceptionKind) (ret : Word) :
    ConfinesAll s (.next (enterException k ret u)) :=
  ⟨fun _ e => by cases e; exact .inr (trapped_enterException h.fiqMask k ret)⟩

theorem raiseUndefined (h : Confined s u) : ConfinesAll s (raiseUndefined u) := enterException (h.charge 1) ..

theorem raiseSoftwareInterrupt (h : Confined s u) : ConfinesAll s (raiseSoftwareInterrupt u) := enterException h ..

theorem whenCond {c : Cond} {k : Result} (h : Confined s s) (hk : ConfinesAll s k) :
    ConfinesAll s (whenCond c s k) := by
  refine ⟨fun t e => ?_⟩
  obtain ⟨-, e⟩ | ⟨-, rfl⟩ := whenCond_eq_next e
  · exact hk.confines t e
  · exact .inl h.advance

/-! ## ARM operations -/

theorem dpCompute_masks (op : DpOp) (a b : Word) (sc : Bool) (p : Psr) :
    (dpCompute op a b sc p).2.mode = p.mode ∧ (dpCompute op a b sc p).2.i = p.i
      ∧ (dpCompute op a b sc p).2.f = p.f := by
  cases op <;> exact ⟨rfl, rfl, rfl⟩

theorem dpWrite {op : DpOp} {sf : Bool} {rd : Reg} {out : Word × Psr} (h : Confined s u)
    (hout : Confined s { u with cpsr := out.2 }) : ConfinesAll s (dpWrite op sf rd out u) := by
  unfold Machine.dpWrite
  split
  · exact next hout.advance
  · split
    · split
      · exact andThen (fun _ e => absurd e h.restoreCpsr_ne_next) fun _ hv => hv.writePc _
      · exact next (h.writePc _)
    · refine next (Confined.setReg ?_ rd _).advance
      split
      · exact hout
      · exact h

theorem exchange (h : Confined s u) {a : Word} : ConfinesAll s (.next (exchange u a)) :=
  next ((h.setCpsr (p := { u.cpsr with t := a.getLsbD 0 }) rfl rfl rfl).writePc a)

theorem blockStore {w : Bool} {rn : Reg} {start newBase : Word} {words : List Word} (h : Confined s u) :
    ConfinesAll s (blockStore u w rn start newBase words) := by
  refine andThen (fun _ => h.storeBlock) fun v hv => Confined.advance ?_
  split
  · exact hv.setReg rn newBase
  · exact hv

theorem blockLoad {restore w : Bool} {rn : Reg} {start newBase : Word} {regs : List Reg} (h : Confined s u) :
    ConfinesAll s (blockLoad restore u w rn start newBase regs) := by
  have loaded := h.blockLoaded w rn start newBase regs
  unfold Machine.blockLoad
  dsimp only
  split
  · exact next loaded.advance
  · split
    · exact andThen (fun _ e => absurd e loaded.restoreCpsr_ne_next) fun _ hv => hv.writePc _
    · exact next (loaded.writePc _)

theorem loadTransfer {k : LoadKind} {x : Indexing} {rn rd : Reg} {o : Offset} (h : Confined s u) :
    ConfinesAll s (loadTransfer k x rn rd o u) := by
  have loaded := ((h.charge 1).noteLoad false k (transferAddr u x rn o)).writeBase x rn (offsetAddr u x rn o)
  unfold Machine.loadTransfer
  dsimp only
  split
  · exact next (loaded.writePc _)
  · exact next (loaded.setReg rd _).advance

theorem storeTransfer {w : Width} {x : Indexing} {rn rd : Reg} {o : Offset} (h : Confined s u) :
    ConfinesAll s (storeTransfer w x rn rd o u) :=
  andThen (fun _ => h.store) fun _ hv => (hv.writeBase x rn _).advance

theorem moveToPsr {r : Bool} {fm : BitVec 4} {a : Word} (h : Confined s u) : ConfinesAll s (moveToPsr r fm a u) := by
  refine andThen (fun v e => ?_) fun _ => .advance
  split at e
  · exact absurd e h.writeSpsr_ne_next
  · exact h.writeCpsr e

theorem dataProcessing {op : DpOp} {c : Cond} {sf : Bool} {rn rd : Reg} {o : Operand2} (h : Confined s s) :
    ConfinesAll s (dataProcessing op c sf rn rd o s) := by
  have charged := h.charge o.internal
  obtain ⟨hm, hi, hf⟩ :=
    dpCompute_masks op (operandReg s rn o.pcOffset) (operand2 s o).1 (operand2 s o).2 s.cpsr
  exact whenCond h <| faultIf <| faultIf <| faultIf <| dpWrite charged (charged.setCpsr hm hi hf)

theorem moveFromPsr {c : Cond} {r : Bool} {sbo : BitVec 4} {rd : Reg} {sbzHi sbzLo : BitVec 4} (h : Confined s s) :
    ConfinesAll s (moveFromPsr c r sbo rd sbzHi sbzLo s) := by
  refine whenCond h <| faultIf <| faultIf <| faultIf ?_
  split
  · split
    · exact fault
    · exact next (h.setReg rd _).advance
  · exact next (h.drew.setReg rd _).advance

theorem multiply {acc : Bool} {c : Cond} {sf : Bool} {rd rn rs rm : Reg} (h : Confined s s) :
    ConfinesAll s (multiply acc c sf rd rn rs rm s) := by
  refine whenCond h <| faultIf <| faultIf <| faultIf <| faultIf <| next (Confined.setReg ?_ rd _).advance
  split
  · exact (h.charge _).drew.setCpsr rfl rfl rfl
  · exact h.charge _

theorem multiplyLong {signed acc : Bool} {c : Cond} {sf : Bool} {rdHi rdLo rs rm : Reg} (h : Confined s s) :
    ConfinesAll s (multiplyLong signed acc c sf rdHi rdLo rs rm s) := by
  refine whenCond h <| faultIf <| faultIf <| faultIf <| next ((Confined.setReg ?_ rdLo _).setReg rdHi _).advance
  split
  · exact (h.charge _).drew.drew.setCpsr rfl rfl rfl
  · exact h.charge _

theorem swap {byte : Bool} {c : Cond} {rn rd : Reg} {sbz : BitVec 4} {rm : Reg} (h : Confined s s) :
    ConfinesAll s (swap byte c rn rd sbz rm s) :=
  whenCond h <| faultIf <| faultIf <| faultIf <| faultIf <|
    andThen (fun _ => ((h.charge 1).noteLoad ..).store) fun _ hv => (hv.setReg rd _).advance

theorem loadMultiple {c : Cond} {p u sf w : Bool} {rn : Reg} {list : BitVec 16} (h : Confined s s) :
    ConfinesAll s (loadMultiple c p u sf w rn list s) := by
  refine whenCond h <| faultIf <| faultIf ?_
  split
  · exact faultIf <| faultIf <| next <|
      (((h.charge 1).noteBlockLoads ..).setUsrRegs _).advance.setHazard true
  · exact faultIf <| blockLoad h

/-! ## Thumb operations -/

theorem thumbResult {rd : LowReg} {r : Word} {p : Psr} (h : Confined s { u with cpsr := p }) :
    ConfinesAll s (thumbResult rd r p u) := next (h.setReg (lowReg rd) r).advance

theorem thumbFlags {p : Psr} (h : Confined s { u with cpsr := p }) : ConfinesAll s (thumbFlags p u) := next h.advance

theorem writeHigh {rd : Reg} {a : Word} (h : Confined s u) : ConfinesAll s (writeHigh rd a u) := by
  unfold Machine.writeHigh
  split
  · exact next (h.writePc a)
  · exact next (h.setReg rd a).advance

theorem thumbBranchCond {c : Cond} {off : BitVec 8} (h : Confined s u) :
    ConfinesAll s (thumbBranchCond c off u) := by
  unfold Machine.thumbBranchCond
  split
  · exact next (h.writePc _)
  · exact next h.advance

end ConfinesAll

/-- In User mode every shared operation stays confined or enters an exception. -/
theorem confinesAll_holdsOfOperations : HoldsOfOperations (fun s r => Confined s s → ConfinesAll s r) where
  dataProcessing _ _ _ _ _ _ _ h := .dataProcessing h
  moveFromPsr _ _ _ _ _ _ _ h := .moveFromPsr h
  moveToPsrReg _ _ _ _ _ _ _ h := .whenCond h <| .faultIf <| .faultIf <| .faultIf <| .moveToPsr h
  moveToPsrImm _ _ _ _ _ _ _ h := .whenCond h <| .faultIf <| .moveToPsr h
  multiply _ _ _ _ _ _ _ _ h := .multiply h
  multiplyLong _ _ _ _ _ _ _ _ _ h := .multiplyLong h
  swap _ _ _ _ _ _ _ h := .swap h
  loadWordByte _ _ _ _ _ _ _ h := .whenCond h <| .faultIf <| .faultIf <| .loadTransfer h
  storeWordByte _ _ _ _ _ _ _ h := .whenCond h <| .faultIf <| .faultIf <| .storeTransfer h
  loadHalfword _ _ _ _ _ _ _ _ h := .whenCond h <| .faultIf <| .faultIf <| .faultIf <| .loadTransfer h
  storeHalfword _ _ _ _ _ _ _ h := .whenCond h <| .faultIf <| .faultIf <| .faultIf <| .storeTransfer h
  loadMultiple _ _ _ _ _ _ _ _ h := .loadMultiple h
  storeMultiple _ _ _ _ _ _ _ _ h := .whenCond h <| .faultIf <| .faultIf <| .faultIf <| .blockStore h
  branch _ _ _ h := .whenCond h <| .next (h.writePc _)
  branchLink _ _ _ h := .whenCond h <| .faultIf <| .next ((h.setReg 14 _).writePc _)
  branchExchange _ _ _ _ h := .whenCond h <| .faultIf <| .faultIf <| .exchange h
  undefinedArm _ _ h := .whenCond h <| .raiseUndefined h
  softwareInterruptArm _ _ h := .whenCond h <| .raiseSoftwareInterrupt h
  thumbLogical _ _ _ _ h := .thumbResult (h.setCpsr rfl rfl rfl)
  thumbArith _ _ _ h := .thumbResult (h.setCpsr rfl rfl rfl)
  thumbShiftReg _ _ _ _ h := .thumbResult ((h.charge 1).setCpsr rfl rfl rfl)
  thumbTest _ _ _ h := .thumbFlags (h.setCpsr rfl rfl rfl)
  thumbCompare _ _ h := .thumbFlags (h.setCpsr rfl rfl rfl)
  thumbMultiply _ _ _ h := .faultIf <| .thumbResult ((h.charge _).drew.setCpsr rfl rfl rfl)
  thumbAddHigh _ _ _ _ _ h := .faultIf <| .faultIf <| .writeHigh h
  thumbCmpHigh _ _ _ _ _ h := .faultIf <| .faultIf <| .thumbFlags (h.setCpsr rfl rfl rfl)
  thumbMovHigh _ _ _ _ _ h := .faultIf <| .faultIf <| .writeHigh h
  thumbBranchExchange _ _ _ _ _ h := .faultIf <| .faultIf <| .exchange h
  thumbLoad _ _ _ _ h := .next (((h.charge 1).noteLoad ..).setReg ..).advance
  thumbStore _ _ _ _ h := .andThen (fun _ => h.store) fun _ => .advance
  thumbAddress _ _ _ h := .next (h.setReg ..).advance
  thumbStackMove _ _ h := .next (h.setReg ..).advance
  onStack _ _ hk h := .faultIf (hk h)
  thumbPush _ _ _ h := .faultIf <| .blockStore h
  thumbPop _ _ _ h := .faultIf <| .blockLoad h
  thumbStoreMultiple _ _ _ h := .blockStore h
  thumbLoadMultiple _ _ _ h := .blockLoad h
  thumbBranchCond _ _ _ h := .thumbBranchCond h
  thumbJump _ _ h := .next (h.writePc _)
  thumbLinkFirst _ _ h := .faultIf <| .next (h.setReg 14 _).advance
  thumbLinkSecond _ _ h := .faultIf <| .next ((h.setReg 14 _).writePc _)
  undefinedThumb _ h := .raiseUndefined h
  softwareInterruptThumb _ h := .raiseSoftwareInterrupt h

/-- In User mode an instruction stays confined or enters an exception. -/
theorem exec_confines {i : Instr} {s t : State} (hs : s.cpsr.mode = .user) (h : exec i s = .next t) :
    Confined s t ∨ Trapped s t := (confinesAll_holdsOfOperations.exec i s (.refl hs)).confines t h

/-! ## A whole step -/

theorem Confined.fetched {s : State} (h : s.cpsr.mode = .user) : Confined s (fetched s) :=
  ⟨h, rfl, rfl, fun n _ => by cases n <;> rfl, fun p _ _ => readPhys_fetched s p⟩

theorem Confined.debit {s u : State} (h : Confined s u) (before : State) : Confined s (debit before u) :=
  ⟨by rw [debit_cpsr, h.mode], by rw [debit_cpsr, h.irqMask], by rw [debit_cpsr, h.fiqMask],
    fun n hn => (readSpsr_debit before u n).trans (h.spsrs n hn),
    fun p hp hpc => (readPhys_debit before u p).trans (h.regs p hp hpc)⟩

theorem Trapped.after {s u t : State} (h : Trapped u t) (before : Confined s u) : Trapped s t :=
  ⟨h.armState, h.irqMask, h.fiqMask.trans before.fiqMask, h.target⟩

theorem Trapped.debit {s u : State} (h : Trapped s u) (before : State) : Trapped s (debit before u) := by
  obtain ⟨ht, hi, hf, k, hmode, hpc⟩ := h
  exact ⟨by rw [debit_cpsr, ht], by rw [debit_cpsr, hi], by rw [debit_cpsr, hf], k, by rw [debit_cpsr, hmode],
    by rw [debit_pc, hpc]⟩

theorem trapped_irqStep (s : State) : Trapped s (irqStep s) := by
  refine Trapped.debit (trapped_enterException ?_ _ _) s
  rfl

/-- A step of User mode stays confined or enters an exception. -/
theorem step_confines {s t : State} (hs : s.cpsr.mode = .user) (h : step s = .next t) : Confined s t ∨ Trapped s t := by
  obtain rfl | rfl | ⟨u, hu, rfl⟩ := step_eq_next h
  · exact .inl (.refl hs)
  · exact .inr (trapped_irqStep s)
  · obtain stays | enters := exec_confines (fetched_cpsr s ▸ hs) hu
    · exact .inl (((Confined.fetched hs).trans stays).debit s)
    · exact .inr ((enters.after (Confined.fetched hs)).debit s)

/-- Settles O57: it holds, since in User mode every shared operation is confined to the flags, the User bank and R15,
or enters one of the three exceptions. -/
theorem userModeConfined : Obligations.UserModeConfined := by
  intro s t hs h
  obtain ⟨hm, hi, hf, hspsrs, hregs⟩ | ⟨ht, hi, hf, k, hmode, hpc⟩ := step_confines hs h
  · exact .inl ⟨hm, hi, hf, hspsrs, hregs⟩
  · refine .inr ⟨ht, hi, hf, ?_⟩
    cases k with
    | softwareInterrupt => exact .inl ⟨hmode, hpc⟩
    | undefinedInstr => exact .inr (.inl ⟨hmode, hpc⟩)
    | hardwareInterrupt => exact .inr (.inr ⟨hmode, hpc⟩)

end Sys2Proof.Machine


/-! The trap and its return (60_exceptions.md R495, R500): MOVS PC, R14 undoes what an entry did to CPSR and goes to the
address that the entry left in the link register. -/

namespace Sys2Proof.Machine

open Sys2Proof Sys2Proof.Claims

/-! ## The trap -/

/-- In either set an undefined instruction that runs is the trap itself. -/
theorem exec_of_undefined {i : Instr} {s : State} (h : (isUndefinedArm i || isUndefinedThumb i) = true)
    (hr : runs i s = true) : exec i s = raiseUndefined s := by
  obtain harm | hthumb := (Bool.or_eq_true ..).mp h
  · obtain ⟨c, hc, hexec⟩ := exec_of_isUndefinedArm harm s
    rw [hexec, undefinedArm, whenCond_of_runs hr hc]
  · exact (exec_of_isUndefinedThumb hthumb s).2

/-- A SWI or undefined instruction that runs enters the exception whose link register `trapLink` names. -/
theorem exec_trap_enters {i : Instr} {s : State} (hi : trapLink i ≠ none) (hr : runs i s = true) :
    ∃ k : ExceptionKind, trapLink i = some (bankHigh k.mode 1) ∧ ∃ e, exec i s = .next e
      ∧ Entered k.mode (bankHigh k.mode 1) k.spsr k.vector (s.pc + instrWidth s) s e := by
  unfold trapLink at hi ⊢
  split at hi
  · exact ⟨.softwareInterrupt, rfl, exec_swi_of_runs hr ▸ raiseSoftwareInterrupt_enters s⟩
  · exact ⟨.softwareInterrupt, rfl, raiseSoftwareInterrupt_enters s⟩
  · split at hi
    · next hundef => exact ⟨.undefinedInstr, if_pos hundef, exec_of_undefined hundef hr ▸ raiseUndefined_enters s⟩
    · exact absurd rfl hi

/-! ## The return -/

/-- A status word stands for the CPSR it was made from. -/
theorem psrOfWord_psrWord (p : Psr) (reserved : BitVec 20) : psrOfWord (psrWord p reserved) = some p := by
  obtain ⟨hn, hz, hc, hv⟩ := psrWord_flags p reserved
  obtain ⟨hi, hf, ht⟩ := psrWord_masks p reserved
  rw [psrOfWord, psrWord_mode, modeOfBits_toBits, hn, hz, hc, hv, hi, hf, ht]

/-- The SPSR that an entry writes is that of the mode it enters (60_exceptions.md R496). -/
theorem spsr_mode (k : ExceptionKind) : k.mode.spsr = some k.spsr := by cases k <;> rfl

/-- MOVS PC, R14 jumps to R14 as the current mode sees it. -/
theorem movsPcLr_value (s : State) : DpForm.value ⟨.mov, true, 0, 15, .immShift 0 .lsl 14⟩ s = readReg s 14 := rfl

theorem ready_movsPcLr {s : State} (ht : s.cpsr.t = false) (hb : s.userBankHazard = false) (rs : List Reg) :
    ready (.movImmShift .al true 0 15 0 .lsl 14) s rs = true := by
  refine ready_iff.2 ⟨?_, ?_⟩
  · rw [runs, ht]
    rfl
  · rw [bankHazard, hb, Bool.false_and]

/-- After exception entry MOVS PC, R14 restores CPSR and jumps to the return address, aligned by the restored T. -/
theorem exec_movsPcLr_of_entered {k : ExceptionKind} {ret : Word} {s e : State}
    (h : Entered k.mode (bankHigh k.mode 1) k.spsr k.vector ret s e) :
    ∃ t, exec (.movImmShift .al true 0 15 0 .lsl 14) e = .next t ∧ t.cpsr = s.cpsr
      ∧ t.pc = fetchAddress s.cpsr.t ret ∧ FlagFrame [] e t := by
  have ht : e.cpsr.t = false := by rw [h.cpsr]
  have hmode : e.cpsr.mode = k.mode := by rw [h.cpsr]
  have hlink : readReg e 14 = ret := by rw [readReg, hmode, bank_link, h.linked]
  obtain ⟨reserved, hsaved⟩ := h.saved
  obtain ⟨t, hexec, hcpsr, ⟨hpc, -, -⟩, frame⟩ :=
    (dpReturn (.movImmShift .al true 0 15 0 .lsl 14) _ e k.spsr rfl (ready_movsPcLr ht h.hazard _) rfl rfl rfl
      (hmode ▸ spsr_mode k)).1 s.cpsr (hsaved ▸ psrOfWord_psrWord ..)
  refine ⟨t, hexec, hcpsr, ?_, frame⟩
  rw [hpc, fetchAddress_eq_and, movsPcLr_value, hlink]

/-- Settles O58: it holds; the entry saves CPSR and the address of the next instruction, the return takes both back, and
the aligned R15 makes that address one that the PC write keeps. -/
theorem trapRoundTrip : Obligations.TrapRoundTrip := by
  intro i s e hs hi hr he
  obtain ⟨k, hlink, e', he', entered⟩ := exec_trap_enters hi hr
  obtain rfl : e' = e := Host.Outcome.next.inj (he'.symm.trans he)
  obtain ⟨t, hexec, hcpsr, hpc, frame⟩ := exec_movsPcLr_of_entered entered
  refine ⟨t, hexec, hcpsr, hpc.trans (fetchAddress_add_width hs), fun p hp hl => ?_, fun a => ?_⟩
  · rw [hlink] at hl
    exact (frame.regs p hp List.not_mem_nil).trans (entered.regs p hp hl)
  · exact (frame.mem a).trans (entered.mem a)

end Sys2Proof.Machine
